-- ==== Sys2Proof/Word.lean ====
section
/-!
DEFINITION. Word.lean: the words of the machine (R6, R40) and the numbers of its parts (Table 1-1).
-/
namespace Sys2Proof

/-- A 32-bit word: a general register, a register of the I/O space, a port of a scalar unit. -/
abbrev Word := BitVec 32
/-- One byte of memory. -/
abbrev Byte := BitVec 8
/-- A 128-bit vector value (R133). -/
abbrev Vec := BitVec 128
/-- A predicate register, one bit per byte lane (R39). -/
abbrev Pred := BitVec 16
/-- A 64-bit time or SECDED word. -/
abbrev Dword := BitVec 64
/-- A 256-bit bundle, or the 32 bytes of a push, a page-table row or a descriptor. -/
abbrev W256 := BitVec 256

/-- Engine number, 0 to 99 (R33); 96 is the Keeper (R16). -/
abbrev EngineId := Fin 100
/-- Die index: Gecko d is d, Newt 0 is 6, Newt 1 is 7 (R15). -/
abbrev DieId := Fin 8
/-- Front-end lane FE0 to FE143 (R17). -/
abbrev LaneId := Fin 144
/-- Front-end quad Q0 to Q35 (R18). -/
abbrev QuadId := Fin 36
/-- DMA channel, 0 to 55. -/
abbrev ChanId := Fin 56
/-- Chain port C0 to C3 (R19). -/
abbrev PortId := Fin 4
/-- Foxglove and Skink number: the Gecko they are on. -/
abbrev GeckoId := Fin 6
/-- Host access slot. -/
abbrev SlotId := Fin 64
/-- Hardware timer number, or reduction channel where it is below 8. -/
abbrev RedId := Fin 8

end Sys2Proof
end

