-- ==== Sys2Proof/Syntax.lean ====
section
/-!
DEFINITION. Syntax.lean: the commands of the block, one constructor per row of the command table, with the data each
command brings. The rule named beside a constructor is the one its row names.
-/
namespace Sys2Proof

/-- The Trigger world and the Host-service world (R373). -/
inductive World where
  | T | H
deriving DecidableEq, Repr

/-- Element formats: bytes, halfwords, words (Table 5-1). -/
inductive VSize where
  | b | h | w
deriving DecidableEq, Repr

/-- Who makes a register access (Table 13-1). -/
inductive Master where
  /-- Engine e with pio. -/
  | pio (e : EngineId)
  /-- Engine e with a load or store through the register aliases. -/
  | alias_ (e : EngineId)
  /-- A DMA channel through the aliases. -/
  | dma (c : ChanId)
  /-- The host through access slot s. -/
  | host (s : SlotId)
  /-- A chain request whose token names an object of world w. -/
  | chain (w : World)
deriving DecidableEq, Repr

/-- A register: engine port (R452), die port (R453) or offset of the host page BAR0 (R395). -/
inductive Target where
  | io (e : EngineId) (port : Nat)
  | die (d : DieId) (port : Nat)
  | bar0 (off : Nat)
deriving DecidableEq, Repr

/-- Who translates an address (R330). -/
inductive Walker where
  | engine (e : EngineId)
  | channel (c : ChanId)
deriving DecidableEq, Repr

/-- What a die-to-die block carries as received: its 256 bytes and its CRC (R324). -/
structure D2dBlk where
  data : List Byte
  crc  : Word
deriving DecidableEq, Repr

/-- A front-end block as captured: 64 payload words and the trailer (R274, R275). -/
structure FeBlock where
  words   : List Word
  trailer : Dword
deriving DecidableEq, Repr

/-- A chain packet: the fields of Table 10-7, token, payload words and CRC (R303). -/
structure Packet where
  dst    : BitVec 9
  src    : BitVec 9
  vc     : BitVec 2
  kind   : BitVec 4
  len    : BitVec 8
  reqid  : BitVec 16
  status : BitVec 4
  tok    : Option (BitVec 128)
  bcast  : Bool
  posted : Bool
  hops   : BitVec 8
  addr   : BitVec 40
  data   : List Word
  crc    : Word
  /-- Frame fc index carried by the flits of a VC1 packet (R308). -/
  slot   : Nat
deriving DecidableEq, Repr

/-- Where a message of the timed-commit protocol comes from: a unit of the package (u < 100 engine, else die u − 100),
or a COMMIT packet on a chain port (R248, R312). -/
inductive CommitSrc where
  | unit (u : Fin 108)
  | port (p : PortId) (k : Packet)
deriving DecidableEq, Repr

/-- The commands. -/
inductive Instr where
  /-- POWER_ON_RESET (R14). -/
  | powerOnReset
  /-- BRING_UP (R423). -/
  | bringUp (straps : Fin 8)
  /-- SUPPLY_MONITOR_RESET (R440). -/
  | supplyMonitorReset
  /-- PERST (R442). -/
  | perst
  /-- PERST_RELEASE (R442). -/
  | perstRelease
  /-- HALT (R313). -/
  | halt (low : Bool)
  /-- KEEPER_BOOT (R425). -/
  | keeperBoot (sfdp : Bool) (primary backup : List Byte)
  /-- BOOT_MBOX_WRITE (R425). -/
  | bootMboxWrite (m : Master) (v : Word)
  /-- BUNDLE_ISSUE (R42). -/
  | bundleIssue (e : EngineId)
  /-- LAUNCH_ISSUE (R236). -/
  | launchIssue (e : EngineId)
  /-- WAIT_UNTIL_END (R128). -/
  | waitUntilEnd (e : EngineId)
  /-- RESULT_DELIVERY (R49). -/
  | resultDelivery (e : EngineId)
  /-- FABRIC_RESPONSE (R318). -/
  | fabricResponse (e : EngineId)
  /-- FABRIC_TRANSACTION (R317). -/
  | fabricTransaction (d : DieId) (port : Nat)
  /-- ECC_TRACKER_EXPIRY (R187). -/
  | eccTrackerExpiry (d : DieId) (bank word : Nat)
  /-- RETIREMENT_RECORD (R189). -/
  | retirementRecord (d : DieId)
  /-- PAGE_WALK (R330). -/
  | pageWalk (w : Walker) (va : Word)
  /-- CACHE_FILL (R180). -/
  | cacheFill (e : EngineId) (instr : Bool)
  /-- STORE_BUFFER_DRAIN (R182). -/
  | storeBufferDrain (e : EngineId)
  /-- ILDATA_BUFFER_WRITE (R179). -/
  | ildataBufferWrite (e : EngineId)
  /-- VECTOR_POWER_DOWN (R155). -/
  | vectorPowerDown (e : EngineId)
  /-- VECTOR_WAKE_DONE (R156). -/
  | vectorWakeDone (e : EngineId)
  /-- EXCEPTION_ENTRY (R351). -/
  | exceptionEntry (e : EngineId)
  /-- CAPWAIT_RESPONSE (R356). -/
  | capwaitResponse (e : EngineId)
  /-- ADD (R104). -/
  | add (e : EngineId) (u : Fin 2) (v : Word)
  /-- SUB (R104). -/
  | sub (e : EngineId) (u : Fin 2) (v : Word)
  /-- NEG (R105). -/
  | neg (e : EngineId) (u : Fin 2) (v : Word)
  /-- ADDS (R106). -/
  | adds (e : EngineId) (u : Fin 2) (v : Word)
  /-- SUBS (R106). -/
  | subs (e : EngineId) (u : Fin 2) (v : Word)
  /-- NEGS (R106). -/
  | negs (e : EngineId) (u : Fin 2) (v : Word)
  /-- ADDT (R103). -/
  | addt (e : EngineId) (u : Fin 2) (v : Word)
  /-- SUBT (R103). -/
  | subt (e : EngineId) (u : Fin 2) (v : Word)
  /-- NEGT (R103). -/
  | negt (e : EngineId) (u : Fin 2) (v : Word)
  /-- ABS (R104). -/
  | abs (e : EngineId) (u : Fin 2) (v : Word)
  /-- ABSS (R106). -/
  | abss (e : EngineId) (u : Fin 2) (v : Word)
  /-- AND (R104). -/
  | and (e : EngineId) (u : Fin 2) (v : Word)
  /-- OR (R104). -/
  | or (e : EngineId) (u : Fin 2) (v : Word)
  /-- XOR (R104). -/
  | xor (e : EngineId) (u : Fin 2) (v : Word)
  /-- ANDN (R104). -/
  | andn (e : EngineId) (u : Fin 2) (v : Word)
  /-- NOR (R104). -/
  | nor (e : EngineId) (u : Fin 2) (v : Word)
  /-- SHL (R107). -/
  | shl (e : EngineId) (u : Fin 2) (v : Word)
  /-- SHR (R107). -/
  | shr (e : EngineId) (u : Fin 2) (v : Word)
  /-- SAR (R107). -/
  | sar (e : EngineId) (u : Fin 2) (v : Word)
  /-- ROL (R107). -/
  | rol (e : EngineId) (u : Fin 2) (v : Word)
  /-- ROR (R107). -/
  | ror (e : EngineId) (u : Fin 2) (v : Word)
  /-- MIN (R104). -/
  | min (e : EngineId) (u : Fin 2) (v : Word)
  /-- MAX (R104). -/
  | max (e : EngineId) (u : Fin 2) (v : Word)
  /-- MINU (R104). -/
  | minu (e : EngineId) (u : Fin 2) (v : Word)
  /-- MAXU (R104). -/
  | maxu (e : EngineId) (u : Fin 2) (v : Word)
  /-- CMPEQ (R104). -/
  | cmpeq (e : EngineId) (u : Fin 2) (v : Word)
  /-- CMPNE (R104). -/
  | cmpne (e : EngineId) (u : Fin 2) (v : Word)
  /-- CMPLT (R104). -/
  | cmplt (e : EngineId) (u : Fin 2) (v : Word)
  /-- CMPLE (R104). -/
  | cmple (e : EngineId) (u : Fin 2) (v : Word)
  /-- CMPLTU (R104). -/
  | cmpltu (e : EngineId) (u : Fin 2) (v : Word)
  /-- CMPLEU (R104). -/
  | cmpleu (e : EngineId) (u : Fin 2) (v : Word)
  /-- PASS (R104). -/
  | pass (e : EngineId) (u : Fin 2) (v : Word)
  /-- SXB (R104). -/
  | sxb (e : EngineId) (u : Fin 2) (v : Word)
  /-- SXH (R104). -/
  | sxh (e : EngineId) (u : Fin 2) (v : Word)
  /-- ZXB (R104). -/
  | zxb (e : EngineId) (u : Fin 2) (v : Word)
  /-- ZXH (R104). -/
  | zxh (e : EngineId) (u : Fin 2) (v : Word)
  /-- MUL (R108). -/
  | mul (e : EngineId) (v : Word)
  /-- MULHS (R108). -/
  | mulhs (e : EngineId) (v : Word)
  /-- MULHU (R108). -/
  | mulhu (e : EngineId) (v : Word)
  /-- MULT (R108). -/
  | mult (e : EngineId) (v : Word)
  /-- MULS (R108). -/
  | muls (e : EngineId) (v : Word)
  /-- MAC (R108). -/
  | mac (e : EngineId) (v : Word)
  /-- MACS (R108). -/
  | macs (e : EngineId) (v : Word)
  /-- MULQ31 (R109). -/
  | mulq31 (e : EngineId) (v : Word)
  /-- MULQ15 (R109). -/
  | mulq15 (e : EngineId) (v : Word)
  /-- DIVS (R111). -/
  | divs (e : EngineId) (v : Word)
  /-- DIVU (R110). -/
  | divu (e : EngineId) (v : Word)
  /-- DIVSS (R111). -/
  | divss (e : EngineId) (v : Word)
  /-- DIVT (R103). -/
  | divt (e : EngineId) (v : Word)
  /-- DIVUT (R103). -/
  | divut (e : EngineId) (v : Word)
  /-- EXT (R113). -/
  | ext (e : EngineId) (v : Word)
  /-- EXTS (R113). -/
  | exts (e : EngineId) (v : Word)
  /-- INS (R113). -/
  | ins (e : EngineId) (v : Word)
  /-- CLZ (R113). -/
  | clz (e : EngineId) (v : Word)
  /-- CTZ (R113). -/
  | ctz (e : EngineId) (v : Word)
  /-- POPC (R113). -/
  | popc (e : EngineId) (v : Word)
  /-- BSWAP (R113). -/
  | bswap (e : EngineId) (v : Word)
  /-- BREV (R113). -/
  | brev (e : EngineId) (v : Word)
  /-- PERM (R114). -/
  | perm (e : EngineId) (v : Word)
  /-- JUMP (R58). -/
  | jump (e : EngineId) (v : Word)
  /-- JUMPR (R58). -/
  | jumpr (e : EngineId) (v : Word)
  /-- CALL (R58). -/
  | call (e : EngineId) (v : Word)
  /-- CALLR (R58). -/
  | callr (e : EngineId) (v : Word)
  /-- RET (R58). -/
  | ret (e : EngineId)
  /-- LOOP (R58). -/
  | loop (e : EngineId) (v : Word)
  /-- SYSGATE (R385). -/
  | sysgate (e : EngineId) (v : Word)
  /-- RTE (R360). -/
  | rte (e : EngineId)
  /-- LDB (R116). -/
  | ldb (e : EngineId) (v : Word)
  /-- LDBU (R116). -/
  | ldbu (e : EngineId) (v : Word)
  /-- LDH (R116). -/
  | ldh (e : EngineId) (v : Word)
  /-- LDHU (R116). -/
  | ldhu (e : EngineId) (v : Word)
  /-- LDW (R116). -/
  | ldw (e : EngineId) (v : Word)
  /-- LD_HR (R116). -/
  | ldHr (e : EngineId) (v : Word)
  /-- LD_WR (R116). -/
  | ldWr (e : EngineId) (v : Word)
  /-- STB (R116). -/
  | stb (e : EngineId) (v : Word)
  /-- STH (R116). -/
  | sth (e : EngineId) (v : Word)
  /-- STW (R116). -/
  | stw (e : EngineId) (v : Word)
  /-- IN (R122). -/
  | in_ (e : EngineId) (v : Word)
  /-- OUT (R122). -/
  | out (e : EngineId) (v : Word)
  /-- RDW (R124). -/
  | rdw (e : EngineId) (v : Word)
  /-- WRW (R125). -/
  | wrw (e : EngineId) (v : Word)
  /-- NOWLO (R225). -/
  | nowlo (e : EngineId)
  /-- NOWHI (R127). -/
  | nowhi (e : EngineId)
  /-- WAITU (R128). -/
  | waitu (e : EngineId) (v : Word)
  /-- SETL (R236). -/
  | setl (e : EngineId) (v : Word)
  /-- SYS_RD (R130). -/
  | sysRd (e : EngineId) (v : Word)
  /-- WR_ASTAT (R102). -/
  | wrAstat (e : EngineId) (v : Word)
  /-- WR_SSP (R132). -/
  | wrSsp (e : EngineId) (v : Word)
  /-- WR_SBASE (R132). -/
  | wrSbase (e : EngineId) (v : Word)
  /-- WR_SLIMIT (R132). -/
  | wrSlimit (e : EngineId) (v : Word)
  /-- VADD (R140). -/
  | vadd (e : EngineId) (z : VSize) (v : Vec)
  /-- VSUB (R140). -/
  | vsub (e : EngineId) (z : VSize) (v : Vec)
  /-- VADDS (R142). -/
  | vadds (e : EngineId) (z : VSize) (v : Vec)
  /-- VSUBS (R142). -/
  | vsubs (e : EngineId) (z : VSize) (v : Vec)
  /-- VMUL (R140). -/
  | vmul (e : EngineId) (z : VSize) (v : Vec)
  /-- VMULQ (R143). -/
  | vmulq (e : EngineId) (z : VSize) (v : Vec)
  /-- VMAC (R140). -/
  | vmac (e : EngineId) (z : VSize) (v : Vec)
  /-- VMACQ (R143). -/
  | vmacq (e : EngineId) (z : VSize) (v : Vec)
  /-- VMIN (R140). -/
  | vmin (e : EngineId) (z : VSize) (v : Vec)
  /-- VMAX (R140). -/
  | vmax (e : EngineId) (z : VSize) (v : Vec)
  /-- VSHL (R142). -/
  | vshl (e : EngineId) (z : VSize) (v : Vec)
  /-- VSHR (R142). -/
  | vshr (e : EngineId) (z : VSize) (v : Vec)
  /-- VSAR (R142). -/
  | vsar (e : EngineId) (z : VSize) (v : Vec)
  /-- VCMPEQ (R139). -/
  | vcmpeq (e : EngineId) (z : VSize) (v : Vec)
  /-- VCMPLT (R139). -/
  | vcmplt (e : EngineId) (z : VSize) (v : Vec)
  /-- VCMPLTU (R139). -/
  | vcmpltu (e : EngineId) (z : VSize) (v : Vec)
  /-- VAND (R141). -/
  | vand (e : EngineId) (v : Vec)
  /-- VOR (R141). -/
  | vor (e : EngineId) (v : Vec)
  /-- VXOR (R141). -/
  | vxor (e : EngineId) (v : Vec)
  /-- VSEL (R138). -/
  | vsel (e : EngineId) (v : Vec)
  /-- VSPLATB (R141). -/
  | vsplatb (e : EngineId) (v : Vec)
  /-- VSPLATH (R141). -/
  | vsplath (e : EngineId) (v : Vec)
  /-- VSPLATW (R141). -/
  | vsplatw (e : EngineId) (v : Vec)
  /-- VWSXBH (R134). -/
  | vwsxbh (e : EngineId) (v : Vec)
  /-- VWSXHW (R134). -/
  | vwsxhw (e : EngineId) (v : Vec)
  /-- VNSH (R134). -/
  | vnsh (e : EngineId) (v : Vec)
  /-- VNSW (R134). -/
  | vnsw (e : EngineId) (v : Vec)
  /-- VRSUMB (R141). -/
  | vrsumb (e : EngineId) (v : Vec)
  /-- VRSUMH (R141). -/
  | vrsumh (e : EngineId) (v : Vec)
  /-- VRSUMW (R141). -/
  | vrsumw (e : EngineId) (v : Vec)
  /-- VRMAXH (R141). -/
  | vrmaxh (e : EngineId) (v : Vec)
  /-- VRPOPC (R141). -/
  | vrpopc (e : EngineId) (v : Vec)
  /-- VLD (R144). -/
  | vld (e : EngineId) (v : Word)
  /-- VLD_D (R134). -/
  | vldD (e : EngineId) (v : Word)
  /-- VLDM (R146). -/
  | vldm (e : EngineId) (v : Word)
  /-- VST (R144). -/
  | vst (e : EngineId) (v : Word)
  /-- VST_D (R144). -/
  | vstD (e : EngineId) (v : Word)
  /-- VSTM (R146). -/
  | vstm (e : EngineId) (v : Word)
  /-- VLD2 (R147). -/
  | vld2 (e : EngineId) (z : VSize) (v : Word)
  /-- VLD3 (R147). -/
  | vld3 (e : EngineId) (z : VSize) (v : Word)
  /-- VLD4 (R147). -/
  | vld4 (e : EngineId) (z : VSize) (v : Word)
  /-- VGATHER (R149). -/
  | vgather (e : EngineId) (z : VSize) (v : Word)
  /-- VLDS (R149). -/
  | vlds (e : EngineId) (z : VSize) (v : Word)
  /-- VSCATTER (R150). -/
  | vscatter (e : EngineId) (z : VSize) (v : Word)
  /-- REGISTER_WRITE (R8). -/
  | registerWrite (m : Master) (t : Target) (v : Word)
  /-- RC_READ (R11). -/
  | rcRead (m : Master) (t : Target)
  /-- NOW_LO_READ (R226). -/
  | nowLoRead (m : Master)
  /-- LAST_LO_READ (R239). -/
  | lastLoRead (m : Master) (e : EngineId)
  /-- TIMESTAMP_READ (R241). -/
  | timestampRead (m : Master) (n : Fin 2) (k : Fin 16)
  /-- IQ_POP (R296). -/
  | iqPop (m : Master) (e : EngineId) (q : Fin 16)
  /-- IQ_WORD_PUSH (R296). -/
  | iqWordPush (m : Master) (e : EngineId) (q : Fin 16) (v : Word)
  /-- IQ_PUSH (R295). -/
  | iqPush (e : EngineId) (q : Fin 16) (ws : W256)
  /-- BTB_FLUSH (R69). -/
  | btbFlush (m : Master) (e : EngineId) (v : Word)
  /-- IMAGE_CHECK (R93). -/
  | imageCheck (m : Master) (e : EngineId) (v : Word)
  /-- ILDATA_WRITE (R179). -/
  | ildataWrite (m : Master) (e : EngineId) (v : Word)
  /-- VEC_WAKE (R156). -/
  | vecWake (m : Master) (e : EngineId) (v : Word)
  /-- PINON (R159). -/
  | pinon (m : Master) (e : EngineId) (v : Word)
  /-- BANK_GIVE (R167). -/
  | bankGive (m : Master) (e : EngineId) (v : Word)
  /-- RECLAIM (R169). -/
  | reclaim (m : Master) (e : EngineId) (bank : Fin 16)
  /-- RECLAIM_COMPLETE (R169). -/
  | reclaimComplete (e : EngineId) (bank : Fin 16)
  /-- IINV (R181). -/
  | iinv (m : Master) (e : EngineId)
  /-- DINV (R181). -/
  | dinv (m : Master) (e : EngineId)
  /-- SKINK_BORROW (R193). -/
  | skinkBorrow (g : GeckoId) (j : Fin 16) (bank : Fin 16)
  /-- SKINK_WORD_TEST (R194). -/
  | skinkWordTest (g : GeckoId)
  /-- EXC_CTL_WRITE (R357). -/
  | excCtlWrite (m : Master) (e : EngineId) (v : Word)
  /-- DOORBELL (R371). -/
  | doorbell (m : Master) (e : EngineId) (v : Word)
  /-- TIMER_FIRE (R411). -/
  | timerFire (t : RedId)
  /-- CLAIM (R408). -/
  | claim (m : Master) (d : DieId) (r : Nat)
  /-- RELEASE (R409). -/
  | release (m : Master) (d : DieId) (r : Nat)
  /-- DIN_TS_ENABLE (R241). -/
  | dinTsEnable (m : Master) (n : Fin 2) (i : Fin 8)
  /-- DIN_TS_DISABLE (R409). -/
  | dinTsDisable (m : Master) (n : Fin 2) (i : Fin 8)
  /-- LAT_MEAS_ENABLE (R300). -/
  | latMeasEnable (m : Master) (n : Fin 2) (l : Fin 72)
  /-- LAT_MEAS_DISABLE (R409). -/
  | latMeasDisable (m : Master) (n : Fin 2)
  /-- DEC_IN_EDGE (R241). -/
  | decInEdge (k : Fin 16) (rising : Bool)
  /-- DEC_STAGE_WRITE (R455). -/
  | decStageWrite (m : Master) (k : Fin 32) (v : Word)
  /-- FINE_DELAY_APPLY (R240). -/
  | fineDelayApply (k : Fin 32)
  /-- TIMED_COMMIT_GO (R248). -/
  | timedCommitGo (m : Master) (v : Word)
  /-- ARM (R248). -/
  | arm (src : CommitSrc)
  /-- UNIT_ACKNOWLEDGE (R248). -/
  | unitAcknowledge (u : Fin 108)
  /-- COMMIT_ACK (R312). -/
  | commitAck (src : CommitSrc)
  /-- COMMIT_NAK (R248). -/
  | commitNak (src : CommitSrc)
  /-- COMMIT_ABORT (R248). -/
  | commitAbort (src : CommitSrc)
  /-- ACK_DEADLINE (R248). -/
  | ackDeadline
  /-- COMMIT_APPLY (R250). -/
  | commitApply (u : Fin 108)
  /-- ENG_START_WRITE (R419). -/
  | engStartWrite (m : Master) (e : EngineId) (v : Word)
  /-- ENG_SNAP_ACCESS (R429). -/
  | engSnapAccess (m : Master) (e : EngineId) (off : Nat) (w : Option Word)
  /-- PROPOSE (R401). -/
  | propose (m : Master) (v : Word)
  /-- CONFIRM (R401). -/
  | confirm (m : Master) (v : Word)
  /-- LARK_TIMEOUT (R401). -/
  | larkTimeout
  /-- VALUE_IN_FORCE (R402). -/
  | valueInForce
  /-- WORLD_CLEAR (R377). -/
  | worldClear (e : EngineId)
  /-- SEAL (R404). -/
  | seal (m : Master) (v : Word)
  /-- MINT (R393). -/
  | mint (m : Master) (v : Word)
  /-- BIND (R395). -/
  | bind (s : SlotId)
  /-- HOST_REQUEST (R396). -/
  | hostRequest (s : SlotId) (x : Nat) (write : Bool) (len : Nat) (data : Nat)
  /-- HOST_RING (R448). -/
  | hostRing (m : Master) (v : Word)
  /-- DMA_CTX_WRITE (R335). -/
  | dmaCtxWrite (m : Master) (d : DieId) (n : Fin 64) (w : Fin 2) (v : Word)
  /-- IOMMU_INVALIDATE (R336). -/
  | iommuInvalidate (m : Master) (d : DieId) (v : Word)
  /-- IOMMU_INV_DONE (R336). -/
  | iommuInvDone (d : DieId)
  /-- DMA_GO (R343). -/
  | dmaGo (m : Master) (c : ChanId) (v : Word)
  /-- DMA_RESUME (R341). -/
  | dmaResume (m : Master) (c : ChanId)
  /-- DMA_ABORT (R328). -/
  | dmaAbort (m : Master) (c : ChanId)
  /-- DMA_PAUSE (R342). -/
  | dmaPause (m : Master) (d : DieId) (v : Word)
  /-- DESCRIPTOR_FETCH (R337). -/
  | descriptorFetch (c : ChanId)
  /-- DMA_BURST (R338). -/
  | dmaBurst (c : ChanId)
  /-- PT_BASE_WRITE (R333). -/
  | ptBaseWrite (m : Master) (e : EngineId) (v : Word)
  /-- TLB_INV (R333). -/
  | tlbInv (m : Master) (e : EngineId) (v : Word)
  /-- SLOT_ENTRY_WRITE (R245). -/
  | slotEntryWrite (m : Master) (d : DieId) (b : Fin 2) (port i : Nat) (v : Word)
  /-- ENG_MAP_WRITE (R427). -/
  | engMapWrite (m : Master) (d : DieId) (b k : Fin 2) (v : Word)
  /-- ROUTE_ENTRY_WRITE (R294). -/
  | routeEntryWrite (m : Master) (l : LaneId) (k : Fin 4) (w : Fin 3) (v : Word)
  /-- QUAD_ENABLE (R272). -/
  | quadEnable (m : Master) (q : QuadId) (v : Word)
  /-- QUAD_DISABLE (R281). -/
  | quadDisable (m : Master) (q : QuadId) (v : Word)
  /-- LANE_SCHED_WRITE (R283). -/
  | laneSchedWrite (m : Master) (l : LaneId) (v : Word)
  /-- CHAN_MASK_CLEAR (R299). -/
  | chanMaskClear (m : Master) (d : DieId) (l : LaneId)
  /-- LANE_BIT_LOCK (R281). -/
  | laneBitLock (l : LaneId)
  /-- BOUNDARY_FOUND (R281). -/
  | boundaryFound (l : LaneId)
  /-- LANE_ALIGNED (R281). -/
  | laneAligned (l : LaneId)
  /-- HELLO (R279). -/
  | hello (l : LaneId) (b : FeBlock)
  /-- HELLO_TRANSMIT (R281). -/
  | helloTransmit (l : LaneId)
  /-- SYNC_HEADER_LOSS (R281). -/
  | syncHeaderLoss (l : LaneId)
  /-- FAILED_RETRAIN (R282). -/
  | failedRetrain (l : LaneId)
  /-- RETRAIN_WAIT_EXPIRY (R282). -/
  | retrainWaitExpiry (l : LaneId)
  /-- DATA_BLOCK (R285). -/
  | dataBlock (l : LaneId) (b : FeBlock)
  /-- NAK_TIMER_EXPIRY (R285). -/
  | nakTimerExpiry (l : LaneId) (s : BitVec 12)
  /-- RELEASE_POINT (R287). -/
  | releasePoint (l : LaneId)
  /-- ROUTED_GROUP_SEND (R292). -/
  | routedGroupSend (n : Fin 2)
  /-- LANE_MAP_WRITE (R299). -/
  | laneMapWrite
  /-- D2D_BLOCK (R324). -/
  | d2dBlock (d : DieId) (p : Fin 6) (seq : Nat) (b : D2dBlk)
  /-- D2D_LOCK_LOSS (R327). -/
  | d2dLockLoss (d : DieId) (p : Fin 6)
  /-- D2D_RETRAIN_DONE (R327). -/
  | d2dRetrainDone (d : DieId) (p : Fin 6)
  /-- D2D_RETRY (R327). -/
  | d2dRetry (d : DieId) (p : Fin 6)
  /-- CHAIN_PORT_ENABLE (R301). -/
  | chainPortEnable (m : Master) (p : PortId) (v : Word)
  /-- CHAIN_PORT_UP (R301). -/
  | chainPortUp (p : PortId)
  /-- CHAIN_PORT_DOWN (R301). -/
  | chainPortDown (p : PortId)
  /-- CHAIN_PORT_RETRY (R301). -/
  | chainPortRetry (p : PortId)
  /-- SET_DEVICE_ID (R302). -/
  | setDeviceId (m : Master) (v : Word)
  /-- SEND_SETID (R302). -/
  | sendSetid (m : Master) (v : Word)
  /-- SETID (R302). -/
  | setid (p : PortId) (k : Packet)
  /-- RD (R304). -/
  | rd (p : PortId) (k : Packet)
  /-- WR (R304). -/
  | wr (p : PortId) (k : Packet)
  /-- RDRSP (R305). -/
  | rdrsp (p : PortId) (k : Packet)
  /-- WRRSP (R305). -/
  | wrrsp (p : PortId) (k : Packet)
  /-- CHAIN_RESPONSE_TIMEOUT (R305). -/
  | chainResponseTimeout (reqid : BitVec 16)
  /-- VC1_DELIVERY (R308). -/
  | vc1Delivery (p : PortId)
  /-- TIME_REQ (R311). -/
  | timeReq (p : PortId) (k : Packet)
  /-- TIME_RSP (R231). -/
  | timeRsp (p : PortId) (k : Packet)
  /-- TIME_EXCHANGE (R231). -/
  | timeExchange
  /-- CALIBRATION_DONE (R232). -/
  | calibrationDone
  /-- RECALIBRATION (R233). -/
  | recalibration
  /-- CALIBRATION_TIMEOUT (R233). -/
  | calibrationTimeout
  /-- PHASE_SLEW (R233). -/
  | phaseSlew
  /-- STOP (R313). -/
  | stop (p : PortId) (k : Packet)
  /-- REDUCTION_WORD (R315). -/
  | reductionWord (p : PortId) (w : Dword)
  /-- REDUCTION_LOCAL (R315). -/
  | reductionLocal (m : Master) (c : RedId) (v : Word)
  /-- REDUCTION_DEADLINE (R315). -/
  | reductionDeadline (c : RedId) (tag : BitVec 12)
  /-- EXPREF_PRESENT (R221). -/
  | exprefPresent (hz : Nat)
  /-- MULTIPLIER_LOCK (R228). -/
  | multiplierLock
  /-- EXPREF_LOST (R230). -/
  | exprefLost
  /-- HEL_CFG_WRITE (R222). -/
  | helCfgWrite (m : Master) (v : Word)
  /-- EPOCH_LOAD (R229). -/
  | epochLoad (m : Master) (v : Word)
  /-- HIT_INPUT_WRITE (R257). -/
  | hitInputWrite (m : Master) (g : GeckoId) (ws : W256) (strobe : Word)
  /-- HIT_WORD (R254). -/
  | hitWord (g : GeckoId)
  /-- END_MARKER (R261). -/
  | endMarker (g : GeckoId)
  /-- NULL_WORD (R256). -/
  | nullWord (g : GeckoId)
  /-- INVALID_WORD (R256). -/
  | invalidWord (g : GeckoId)
  /-- ROAD_OUTPUT (R264). -/
  | roadOutput (g : GeckoId)
  /-- OUTPUT_HOLD_RELEASE (R266). -/
  | outputHoldRelease (g : GeckoId)
  /-- PATTERN_WRITE (R255). -/
  | patternWrite (m : Master) (g : GeckoId) (p : Fin 32768) (ws : W256) (strobe : Word)
  /-- SEGMENT_ONLINE_REQUEST (R268). -/
  | segmentOnlineRequest (m : Master) (g : GeckoId) (s : Fin 8)
  /-- SEGMENT_CHECK_DONE (R268). -/
  | segmentCheckDone (g : GeckoId) (s : Fin 8)
  /-- SEGMENT_OFFLINE_REQUEST (R269). -/
  | segmentOfflineRequest (m : Master) (g : GeckoId) (s : Fin 8)
  /-- FOX_CTL_WRITE (R260). -/
  | foxCtlWrite (m : Master) (g : GeckoId) (v : Word)
  /-- PATTERN_SCRUB (R270). -/
  | patternScrub (g : GeckoId)
  /-- THERMAL_SAMPLE (R430). -/
  | thermalSample (codes : Dword)
  /-- THERMAL_TRIP (R431). -/
  | thermalTrip (codes : Dword)
  /-- TRIP_CLEAR (R431). -/
  | tripClear (m : Master)
  /-- I2C_INDEX_WRITE (R450). -/
  | i2cIndexWrite (index : BitVec 16)
  /-- I2C_READ (R450). -/
  | i2cRead
  /-- EXTEST (R449). -/
  | extest
  /-- SAMPLE_PRELOAD (R449). -/
  | samplePreload (cells : BitVec 396)
  /-- IDCODE (R449). -/
  | idcode
  /-- CLAMP (R449). -/
  | clamp
  /-- HIGHZ (R449). -/
  | highz
  /-- EXTEST_PULSE (R449). -/
  | extestPulse
  /-- EXTEST_TRAIN (R449). -/
  | extestTrain
  /-- READYSCAN (R449). -/
  | readyscan
  /-- BYPASS (R449). -/
  | bypass
  /-- PCIE_LINK_UP (R424). -/
  | pcieLinkUp
  /-- PCIE_LINK_DOWN (R447). -/
  | pcieLinkDown
  /-- TAP_RESET (R449). -/
  | tapReset
deriving DecidableEq, Repr

end Sys2Proof
end

