-- ==== Sys2Proof/Decode.lean ====
section
/-!
DEFINITION. Decode.lean: the command that a word of the command table spells. No row of the table has bits: a command is an
event with its data, and no word spells one.
-/
namespace Sys2Proof

/-- The command spelled by the table's bits: none, for no row gives bits. -/
def decodeTableWord (_nbits _w : Nat) : Option Instr := none

end Sys2Proof
end

