-- ==== Sys2Proof/Config.lean ====
section
/-!
DEFINITION. Config.lean: what one implementation fixes, and the values the manual leaves open. Nothing here has a
body: a statement holds whatever these values are.
-/
namespace Sys2Proof

/-- The two steppings (R1, R2). -/
inductive Stepping where
  | A1 | B0
deriving DecidableEq, Repr, Inhabited

namespace Config

/-- The stepping of the part (R3). -/
opaque stepping : Stepping

/-- Byte i of the boot ROM: fixed for each stepping and not otherwise specified (R456). -/
opaque bootRomByte : Nat → Byte

/-- The seal key that the on-chip random source gives at the n-th draw (R389). -/
opaque randomKey : Nat → BitVec 128

/-- A pseudo-random number of capture steps for exchange n (R231); taken modulo 16. -/
opaque jitter : Nat → Nat

/-- The way a cache gives up on a fill into a full set at draw n: the manual names no replacement rule (R180). -/
opaque victim : Nat → Nat

/-- The result of a reduction under the reserved operations 6 and 7 (Table 10-11): inputs a and b. -/
opaque reservedReduction : Nat → Word → Word → Word

/-- A value the manual leaves open, at draw n. -/
opaque freeWord : Nat → Word

end Config
end Sys2Proof
end

