-- ==== Sys2Proof/Machine/Bits.lean ====
section
/-!
DEFINITION. Machine/Bits.lean: bit fields, sign extension, byte order (R6) and bounded lists of bytes.
-/
namespace Sys2Proof.Machine

/-- Field [hi:lo] of a word as a number (R6). -/
def fld {w : Nat} (x : BitVec w) (hi lo : Nat) : Nat := (x.toNat >>> lo) % 2 ^ (hi + 1 - lo)

/-- Bit i of a word. -/
def bitOf {w : Nat} (x : BitVec w) (i : Nat) : Bool := x.toNat.testBit i

/-- x with field [hi:lo] replaced by v (v is cut to the field). -/
def setFld {w : Nat} (x : BitVec w) (hi lo v : Nat) : BitVec w :=
  let m : BitVec w := BitVec.ofNat w ((2 ^ (hi + 1 - lo) - 1) * 2 ^ lo)
  (x &&& ~~~m) ||| (BitVec.ofNat w (v * 2 ^ lo) &&& m)

/-- x with bit i set to b. -/
def setBit {w : Nat} (x : BitVec w) (i : Nat) (b : Bool) : BitVec w :=
  if b then x ||| BitVec.ofNat w (2 ^ i) else x &&& ~~~(BitVec.ofNat w (2 ^ i))

/-- A Bool as a one-bit number. -/
def b2n (b : Bool) : Nat := if b then 1 else 0

/-- A number placed at bit lo of a 32-bit word. -/
def at32 (lo v : Nat) : Word := BitVec.ofNat 32 (v * 2 ^ lo)

/-- Little-endian number of a list of bytes: the first byte is the least significant (R6). -/
def leNat : List Byte → Nat
  | [] => 0
  | b :: bs => b.toNat + 256 * leNat bs

/-- The n little-endian bytes of a number (R6). -/
def leBytes : Nat → Nat → List Byte
  | 0, _ => []
  | n + 1, x => BitVec.ofNat 8 x :: leBytes n (x / 256)

/-- Field saturating counter: adds k to field [hi:lo], stopping at the field's largest value. -/
def bumpFld {w : Nat} (x : BitVec w) (hi lo k : Nat) : BitVec w :=
  let m := 2 ^ (hi + 1 - lo) - 1
  setFld x hi lo (min m (fld x hi lo + k))

/-- Rotate a number of 32 bits right by n bits. -/
def ror32 (x : Word) (n : Nat) : Word := x.rotateRight n

/-- Sum of a list of numbers. -/
def sumNat (l : List Nat) : Nat := l.foldl (· + ·) 0

/-- Position of the lowest set bit below n, if any. -/
def lowestBit {w : Nat} (x : BitVec w) (n : Nat) : Option Nat :=
  (List.range n).find? (fun i => bitOf x i)

/-- The set bits below n, lowest first. -/
def bitsOf {w : Nat} (x : BitVec w) (n : Nat) : List Nat :=
  (List.range n).filter (fun i => bitOf x i)

/-- Replace element i of a list (nothing where there is none). -/
def setAt {α : Type} : List α → Nat → α → List α
  | [], _, _ => []
  | _ :: as, 0, b => b :: as
  | a :: as, n + 1, b => a :: setAt as n b

/-- Change the first element that satisfies p. -/
def updFirst {α : Type} (p : α → Bool) (f : α → α) : List α → List α
  | [] => []
  | a :: as => if p a then f a :: as else a :: updFirst p f as

/-- Remove the first element that satisfies p. -/
def delFirst {α : Type} (p : α → Bool) : List α → List α
  | [] => []
  | a :: as => if p a then as else a :: delFirst p as

end Sys2Proof.Machine
end

