-- ==== Sys2Proof/Machine/State.lean ====
section
/-!
DEFINITION. Machine/State.lean: everything the manual gives the package, as plain data, and the package right after
POR_N is released (State.reset).
-/
namespace Sys2Proof.Machine

/-! ## Sparse contents -/

/-- A sparse content: keys strictly rising, no entry equal to what an unlisted key reads as. -/
abbrev SMap (α : Type) := List (Nat × α)
/-- Memory: address and byte. An unlisted byte reads as 0 (log 4). -/
abbrev Memory := SMap Byte
/-- Registers by port address; an unlisted register reads as its reset value. -/
abbrev RegMap := SMap Word

/-! ## Engine -/

/-- The ports of one functional unit (Table 3-3), each 128 bits wide here and cut to its own width by every write. -/
structure UnitPorts where
  a  : Vec := 0
  b  : Vec := 0
  c  : Vec := 0
  q  : Vec := 0
  q1 : Vec := 0
deriving DecidableEq, Repr

/-- A fault of an operation: cause, FADDR and CDETAIL of Table 12-1. -/
structure OpFault where
  cause   : Nat
  faddr   : Word
  cdetail : Word
deriving DecidableEq, Repr

/-- The response of a fabric access (R26, R317). -/
inductive Resp where
  /-- The access was made; the data read, little-endian. -/
  | ok (data : Nat)
  /-- Bus error: 0 reserved range or no register, 1 target response, 2 uncorrectable ECC (Table 12-1). -/
  | bus (kind : Nat)
  /-- The bank's owner code, found not to admit the master (R165). -/
  | owner (code : Nat)
  /-- Partition refusal, reason 11 (R380). -/
  | part
  /-- Register world refusal, reason 12 (R374). -/
  | world
  /-- Register level refusal (R374, R123). -/
  | level
  /-- Misaligned register access (R123). -/
  | misaligned
  /-- Capability: CDETAIL[3:0] 1 refused at the target, 2 no outbound token (R394). -/
  | cap (code : Nat)
  /-- The access is accepted and held at its target, which acknowledges later (R295, R257, R179). -/
  | held
deriving DecidableEq, Repr

/-- A fabric request of an engine (R317): the translated access and the unit it serves. -/
structure FabReq where
  write  : Bool
  /-- 40-bit fabric address. -/
  addr   : Nat
  /-- Length in bytes. -/
  len    : Nat
  /-- Byte strobes, bit j for byte j. -/
  strobe : Nat
  data   : Nat
  /-- Outbound token for a remote address (R394). -/
  token  : Nat
  /-- Address in the data space, for FADDR. -/
  va     : Word
  /-- Level of the code that asks (R123). -/
  sup    : Bool := true
  /-- It is the request of a `pio` operation (R123). -/
  pio    : Bool := false
deriving DecidableEq, Repr

/-- Who waits for a fabric response. -/
inductive FabUse where
  /-- The operation with this number in the engine's list of operations in flight. -/
  | op (id : Nat)
  /-- A line fill of the instruction (true) or data cache (R180). -/
  | fill (instr : Bool) (line : Nat)
  /-- A store-buffer drain (R182). -/
  | drain
  /-- A remote in captured at exception entry: frame offset of its kind-2 word (R356). -/
  | capture (frameOff : Nat)
  /-- A read that a page walk or a gate check needs (R330, R384): fabric address and length. -/
  | table (addr len : Nat)
  /-- An access abandoned after its grant; its data is discarded (R329). -/
  | discard
  /-- A write abandoned after its grant: every run of its bytes is still made (R329, R353). -/
  | rest
deriving DecidableEq, Repr

/-- The outstanding fabric transaction of an engine (R318). -/
structure FabOut where
  req  : FabReq
  use  : FabUse
  /-- none until the target has answered. -/
  resp : Option Resp
deriving DecidableEq, Repr

/-- Where an access that passed its checks goes: nowhere (no active byte), the own scratchpad at a local address, the fabric, or
not yet known, because its page has still to be walked. -/
inductive Spot where
  | none
  | own (x : Nat)
  | fab (r : FabReq)
  | walk
deriving DecidableEq, Repr

/-- One access of an `lsu` or `vlsu` operation: data-space address, length, byte strobes, data of a store, and the element or
field that it is (R118, R147, R149), with the outcome of its checks as they stand at the trigger (R165, R168, R383). -/
structure MemPart where
  va     : Word
  len    : Nat
  strobe : Nat
  data   : Nat
  elem   : Nat
  /-- Bytes by which the operation's own address misses its natural alignment (R178). -/
  off    : Nat := 0
  spot   : Spot := .none
  bad    : Option OpFault := none
deriving DecidableEq, Repr

/-- What an operation in flight does when its stages fall due (R49). -/
inductive OpAct where
  /-- Nothing at delivery: what it does has been done, or it has failed. -/
  | store
  /-- Writes q at delivery. -/
  | writeQ
  /-- Writes q0 and q1 at delivery (div). -/
  | writeQQ
  /-- A local `in` or `out`: the access is made at delivery (R122). -/
  | pioIn (port : Nat)
  | pioOut (port : Nat) (v : Word)
  /-- An instruction-space read or write, made at delivery (R125). -/
  | ixuRd (addr : Nat)
  | ixuWr (addr : Nat) (v : Word)
  /-- A write of a sys register, in force at delivery (R132). -/
  | sysWr (n : Nat) (v : Word)
  /-- A write of the launch register (R236). -/
  | setl (t : Dword)
  /-- A structure load: registers v(n), v(n+1) in cycle s + 5, the others in s + 6 (R147). -/
  | vstruct (n : Nat) (vals : List Vec)
  /-- A load, store or element sequence on the own scratchpad: accesses still to make, each in its port ec, and what it has read so
  far, oldest first (R149, R170). -/
  | seq (load : Bool) (parts : List MemPart) (got : List Nat)
  /-- A variable-latency access: the accesses still to make, the first of them in progress, and the bytes of each access made,
  oldest first (R51, R177). -/
  | mem (load : Bool) (parts : List MemPart) (got : List Nat)
  /-- A variable-latency load whose data is complete; it delivers no earlier than a load of the own scratchpad would. -/
  | ready (got : List Nat)
  /-- A variable-latency `in` or `out` at a remote port: the request (R122). -/
  | rpio (req : FabReq)
deriving DecidableEq, Repr

/-- An operation in flight. -/
structure Op where
  /-- Number of the operation on its engine, rising in trigger order. -/
  id     : Nat
  unit   : Nat
  opcode : Nat
  slot   : Nat
  /-- PC of the triggering bundle. -/
  pc     : Word
  /-- Schedule cycles since the trigger (R49). -/
  age    : Nat
  /-- Latency; 0 for a variable-latency operation (R51). -/
  lat    : Nat
  act    : OpAct
  q      : Vec := 0
  q1     : Vec := 0
  flags  : BitVec 4 := 0
  /-- The trap condition holds and becomes known at this age (R367). -/
  trapAt : Option Nat := none
  /-- Re-triggered with NT = 1: raises no trap (R370). -/
  nt     : Bool := false
  /-- A fault and the age at which it is found (R346). -/
  fault  : Option (Nat × OpFault) := none
  /-- Long-operation count of R354: 0, 1, or 2 for a remote in. -/
  long   : Nat := 0
  /-- Bundles issued since the trigger (R367). -/
  dist   : Nat := 0
  /-- Engine cycle of the trigger (R66). -/
  ecAt   : Nat := 0
  /-- Schedule cycle of the trigger (R119). -/
  cyc    : Nat := 0
  /-- What a load keeps of its operands until its data has come: an address, or the first register of a structure load. -/
  arg    : Nat := 0
  /-- First register of a structure load, taken at the trigger (R147). -/
  reg    : Nat := 0
  /-- Level of the code that triggered it. -/
  sup    : Bool := true
  /-- A line fill for it has failed: it makes its accesses itself (R146, R186). -/
  direct : Bool := false
  /-- The code that triggered it has been left by a return: its bundles no longer count (R368). -/
  away   : Bool := false
  /-- Uses of ports of the own scratchpad: age and bank (Table 6-3). -/
  uses   : List (Nat × Nat) := []
  /-- Bytes that younger own stores have replaced since the trigger, as they were: a load takes these, and a store leaves these
  addresses alone (R119). -/
  shadow : SMap Byte := []
deriving DecidableEq, Repr

/-- An owed arithmetic trap (R367). -/
structure Owed where
  /-- Number of the operation, and schedule cycles since its condition became known. -/
  id     : Nat
  age    : Nat
  dist   : Nat
  pc     : Word
  unit   : Nat
  opcode : Nat
  slot   : Nat
  flags  : BitVec 4
  /-- The code that triggered it has been left by a return (R368). -/
  away   : Bool := false
deriving DecidableEq, Repr

/-- A translation-buffer entry (R333, R336): 4 KiB or 4 MiB, global, rights, physical page base. -/
structure TlbEnt where
  big   : Bool
  glob  : Bool
  /-- VA[31:12] (low 10 bits 0 for a 4 MiB entry). -/
  vpn   : Nat
  /-- Physical base of the page. -/
  pa    : Nat
  /-- U, X, W, R in bits 3 to 0. -/
  rights : BitVec 4
deriving DecidableEq, Repr

/-- A branch-target-buffer entry (R67). -/
structure BtbEnt where
  pc     : Word
  target : Word
  count  : Nat
deriving DecidableEq, Repr

/-- A store-buffer entry: 16-byte block, byte mask, data, and the store's own address and width (R182, R183). -/
structure SbEnt where
  block : Nat
  mask  : Nat
  data  : Nat
  addr  : Nat
  len   : Nat
  token : Nat
deriving DecidableEq, Repr

/-- A cache line of 64 bytes: line address and contents (R180). -/
structure CLine where
  line : Nat
  data : List Byte
deriving DecidableEq, Repr

/-- Power state of the vector unit (R155, R156). -/
inductive VPwr where
  | on | asleep | waking
deriving DecidableEq, Repr

/-- The master whose outstanding transaction waits for a target that holds it. -/
inductive Waiter where
  | engine (e : EngineId)
  | channel (c : ChanId)
  /-- A chain request or the host, with the count of epochs and keys committed when it was checked (R392). -/
  | outer (gen : Nat)
deriving DecidableEq, Repr

/-- A push held at an engine's target port (R295, R296): its queue, its words, and the master whose alias write it is. -/
structure HeldPush where
  queue : Fin 16
  words : List Word
  who   : Option Waiter
  /-- It is a pair of words of the die's road output (R265). -/
  road  : Bool := false
deriving DecidableEq, Repr

/-- An armed timed commit at a unit (R248). -/
structure Arm where
  seq   : Nat
  time  : Dword
  /-- Target mode, none where the commit changes none. -/
  mode  : Option (Fin 12)
  swap  : Bool
  entry : Nat
  slotsw : Bool
  /-- The ACK has been sent. -/
  acked : Bool
  /-- Package of the coordinator is another one: the ACK goes upstream. -/
  remote : Bool
  /-- A condition kept since the ACK has been broken: MD11 at T (R249). -/
  broken : Bool := false
  /-- Mode of the unit before it applied the change; some once it has applied. -/
  applied : Bool := false
deriving DecidableEq, Repr

/-- A byte of bank 0 or 1 that port B writes: its address, the byte that port A still reads in that ec, the ec, and whether port A
held it from the ec before (Table 6-5). -/
structure PortBWrite where
  addr   : Nat
  before : Byte
  ec     : Nat
  held   : Bool
deriving DecidableEq, Repr

/-- What the hazard detector holds of one program (R213): schedule cycles since a result port, by 16 × unit + number, last
received a result or a move write; results that a drain window delivered early, with the cycles since their trigger and the
cycles until they are due; units that lost a bank port or split (kind 3), and those whose hold ec has not passed yet; the slots
whose triggers R50 has held in the bundle at issue (kind 2). -/
structure HazRec where
  seen     : List (Nat × Nat) := []
  early    : List (Nat × Nat × Nat) := []
  losses   : List Nat := []
  lossDue  : List Nat := []
  rateHeld : List Nat := []
deriving DecidableEq, Repr

/-- One engine (R33). -/
structure Engine where
  gr      : Vector Word 32 := .replicate 32 0
  vr      : Vector Vec 16 := .replicate 16 0
  pr      : Vector Pred 8 := .replicate 8 0
  units   : Vector UnitPorts 16 := .replicate 16 {}
  lc      : Word := 0
  ra      : Word := 0
  pc      : Word := 0
  astat   : BitVec 4 := 0
  cause   : Nat := 0
  cdetail : Word := 0
  faddr   : Word := 0
  ssp     : Word := 0
  sbase   : Word := 0
  slimit  : Word := 0
  slip    : Word := 0
  mode    : Fin 12 := 0
  /-- The engine waits for the bring-up: the Keeper's ROM has not been copied yet (R415, R423). -/
  held    : Bool := false
  world   : World := .H
  sup     : Bool := true
  /-- Unreturned entries and the level at the outermost one (R361). -/
  depth   : Nat := 0
  outerSup : Bool := true
  launch  : Dword := 0
  /-- Sample of the last nowlo (R127). -/
  nowSample : Dword := 0
  timLast : Dword := 0
  timLastLatch : Word := 0
  /-- The next bundle holds until this time (R128). -/
  waitTo  : Option Dword := none
  /-- A launch-timed bundle has been held for its launch time (R236). -/
  launchWait : Bool := false
  /-- Schedule cycles and engine cycles passed. -/
  cycle   : Nat := 0
  ec      : Nat := 0
  /-- Engine cycles that the engine has passed and TIM_NOW has not reached yet (R225, R237; log 76). -/
  ahead   : Nat := 0
  /-- The present schedule cycle is still free for an issue. -/
  cycleOpen : Bool := true
  /-- Bubble cycles still to pass (R60). -/
  bubbles : Nat := 0
  /-- Iterations still to run of a repeated bundle that has issued at least once, none outside a repeat (R63). -/
  repLeft : Option Nat := none
  /-- REPLEFT of the frame just returned from, until the bundle issues (R363). -/
  repResume : Nat := 0
  inflight : List Op := []
  opId    : Nat := 0
  owed    : List Owed := []
  /-- Cycles until the element sequencer accepts a trigger (R50, R148). -/
  seqBusy : Nat := 0
  /-- Stall ec that stand between the present schedule cycle and the next (R118, R172, R197). -/
  holdDue : Nat := 0
  /-- Units whose result ports received a result in the present schedule cycle (R37). -/
  arrived : List Nat := []
  /-- Units whose variable-latency operations have delivered in the present ec (R37, R51). -/
  came    : List Nat := []
  /-- Vector registers that a structure load has written in the present schedule cycle, with what its bundle still reads in them
  (R46, R147). -/
  vrOld   : List (Nat × Vec) := []
  /-- Engine cycle by which the results that each unit has delivered are at their ports, and at 1 the registers that structure
  loads have written (R66). -/
  readyAt : Vector Nat 16 := .replicate 16 0
  /-- Direct vr writes made in the present ec, and the moves' writes beside them (R47). -/
  vrDirect : Nat := 0
  /-- The hazard detector's record, and those of the interrupted programs, one per unreturned entry (R213). -/
  haz     : HazRec := {}
  hazSaved : List HazRec := []
  /-- The first issue after an RTE from cause 0x0F is exempt from hazard checks (R217). -/
  hazExempt : Bool := false
  /-- A captured `in` ended in an error: its number in trigger order, and its status and 16 times its slot, until the entry at
  the return bundle (R459). -/
  capErr  : Option (Nat × Nat) := none
  /-- Frame offset of the last entry, while no ec has passed since: EXC_CTL writes act on the IE bit saved there (R357). -/
  entryFrame : Option Nat := none
  /-- A return has restored the state of the frame at this offset and waits for CAPWAIT = 0 (R360). -/
  returning : Option Nat := none
  /-- Answers of the reads that the present page walk or gate check has made: fabric address, length, answer (R330, R384). -/
  tables  : List (Nat × Nat × Resp) := []
  /-- The bundle as it was fetched last: what the iterations of a repeated one run (R125). -/
  fetched : W256 := 0
  fabQ    : List (FabReq × FabUse) := []
  fabOut  : Option FabOut := none
  /-- The fabric cycle from which the next request may leave: that after the last response (R318). -/
  fabNext : Nat := 0
  /-- I/O registers by port address (RegMap); unlisted registers hold their reset values. -/
  io      : RegMap := []
  /-- Register writes not yet in force: the engine cycle from which each is, the port, and the value before it; for TLB_INV
  the value written (R71, R333, R357, R383). -/
  late    : List (Nat × Nat × Word) := []
  /-- Instruction scratchpad by word address (R124). -/
  imem    : SMap Word := []
  /-- Half A still holds the boot ROM copy (R415); words that were written stand in imem. -/
  romA    : Bool := false
  /-- Words that `wrw` has written: schedule cycles since then, address and the word before it (R125). -/
  iw      : List (Nat × Nat × Word) := []
  /-- A line fetch of far code that failed, until an entry is taken (R186): line and fault. -/
  fetchErr : Option (Nat × OpFault) := none
  /-- The one-word buffer of an own `out` to ENG_ILDATA (R179). -/
  ilBuf   : Option Word := none
  /-- Writes of ENG_ILDATA through the alias, held at the target port until fetch leaves the half (R179), oldest first, each
  with the master that made it. -/
  ilHeld  : List (Word × Option Waiter) := []
  activeB : Bool := false
  everRun : Bool := false
  /-- Bytes of banks 0 and 1 that port B has written in the present ec, or was held to write in it (R174). -/
  portB   : List PortBWrite := []
  /-- An instruction fill from the own scratchpad in progress: line, words moved, and hold ec of a yield that come first (R170,
  R197). -/
  ifill   : Option (Nat × Nat × Nat) := none
  /-- Borrowed banks that a DMA access has made yield, and the fabric cycle from which it may be made (R197). -/
  yields  : List (Nat × Nat) := []
  /-- Banks with a reclaim waiting for transactions in flight (R169). -/
  reclaim : List Nat := []
  /-- Fabric cycle of the last access to each bank (R193). -/
  bankAt  : Vector Nat 16 := .replicate 16 0
  /-- Input queues, oldest word first (R295), and pushes held at the engine port. -/
  iq      : Vector (List Word) 16 := .replicate 16 []
  iqHeld  : List HeldPush := []
  btb     : SMap BtbEnt := []
  rstack  : List Word := []
  tlb     : List TlbEnt := []
  tlbNext : Nat := 0
  /-- The page of a completed walk that faulted, until the bundle issues (R333). -/
  walked  : Option Nat := none
  icache  : List CLine := []
  dcache  : List CLine := []
  sbuf    : List SbEnt := []
  vpwr    : VPwr := .on
  vidle   : Nat := 0
  /-- The idle count has reached 4,096 and the unit has not powered down yet (R155). -/
  vdue    : Bool := false
  /-- A trigger of the vector unit has issued in the present ec (R155). -/
  vtrig   : Bool := false
  vwake   : Nat := 0
  /-- Engine cycles of clearing left after a world change (R377). -/
  clearing : Nat := 0
  arm     : Option Arm := none
  /-- Acknowledged arms of earlier commits, oldest first: still to be applied, or applied and open to a late ABORT (R248). -/
  armed   : List Arm := []
  /-- Throttling: engine cycles until the next issue is allowed (R430). -/
  throttle : Nat := 0
deriving DecidableEq, Repr

/-! ## Die -/

/-- Holder of a claimed resource (R408). -/
inductive Holder where
  | engine (e : EngineId)
  | host
  | timeTree
  | linkLatency
  | decIn
deriving DecidableEq, Repr

/-- A claim: holder and its world (R408). -/
structure Claim where
  holder : Holder
  world  : World
deriving DecidableEq, Repr

/-- A re-ordering view of one die-to-die port (R324): receiver and sender side. -/
structure D2d where
  /-- Next block the receiver expects. -/
  expect  : Nat := 0
  /-- A bad block has been discarded and its good copy has not arrived. -/
  waiting : Bool := false
  /-- Re-sends of the bad block so far. -/
  resends : Nat := 0
  /-- Blocks acknowledged. -/
  acked   : Nat := 0
  down    : Bool := false
deriving DecidableEq, Repr

/-- An error tracker entry: word, count, fabric cycle of its last error (R187). -/
structure Track where
  word  : Nat
  count : Nat
  last  : Nat
deriving DecidableEq, Repr

/-- An IOMMU invalidation in progress (R336). -/
structure IoInv where
  ctx : Nat
  all : Bool
  vpn : Nat
  /-- Entries that it has dropped. -/
  gone : List TlbEnt := []
deriving DecidableEq, Repr

/-- One die. -/
structure Die where
  /-- Die registers by port address; unlisted registers hold their reset values. -/
  regs    : RegMap := []
  mode    : Fin 12 := 1
  qreason : Nat := 0
  /-- Bank in use of the slot tables and of the engine map (SLOT_CTL.ACTIVE, R245, R427). -/
  active  : Bool := false
  claims  : SMap (Option Claim) := []
  arm     : Option Arm := none
  /-- Acknowledged arms of earlier commits, oldest first (R248). -/
  armed   : List Arm := []
  d2d     : Vector D2d 6 := .replicate 6 {}
  /-- Round-robin: last winner by target port and QoS (R319). -/
  lastWin : SMap Nat := []
  /-- Fabric cycle after that of the last grant, by target port: a port grants one beat per fc (R317). -/
  granted : SMap Nat := []
  /-- IOMMU translation buffer: context and entry, oldest first (R336). -/
  iommu   : List (Nat × TlbEnt) := []
  inval   : Option IoInv := none
  /-- Error trackers by bank key (R187), spare words used by bank key (R188). -/
  track   : SMap (List Track) := []
  spares  : SMap Nat := []
  /-- Retirements not yet recorded in the calibration store: bank key and word (R189). -/
  toRecord : List (Nat × Nat) := []
deriving DecidableEq, Repr

/-! ## DMA -/

/-- A descriptor (Table 11-4). -/
structure Desc where
  ctx    : Nat
  last   : Bool
  qos    : Nat
  irq    : Bool
  hb     : Bool
  hbBank : Nat
  hbCode : Nat
  len    : Nat
  src    : Nat
  dst    : Nat
  next   : Nat
deriving DecidableEq, Repr

/-- State of a DMA channel (DMA_STAT.STATE). -/
inductive DmaSt where
  | idle | running | paused | stopped
deriving DecidableEq, Repr

/-- What a channel's transfer in progress does: fetch a descriptor, read a burst, write a burst (R337, R338). -/
inductive DmaStage where
  | fetch | read | write
deriving DecidableEq, Repr

/-- One side of a transfer: its address in the context's view, its fabric address and its outbound token (R334, R394). -/
structure DmaSide where
  va    : Nat
  fa    : Nat
  token : Nat
deriving DecidableEq, Repr

/-- A descriptor fetch or a burst whose translations and checks have passed (R337, R338): its stage, its sides, its length, bytes
of the stage moved so far, and the bytes read. -/
structure DmaXfer where
  stage : DmaStage
  src   : DmaSide
  dst   : DmaSide
  len   : Nat
  moved : Nat
  data  : Nat
deriving DecidableEq, Repr

/-- The outstanding request of a channel (R318): the side and bytes of it, whether it reads a page-table entry, and its answer; an
ABORT leaves it to complete without effect (R328). -/
structure DmaReq where
  write : Bool
  fa    : Nat
  len   : Nat
  token : Nat
  data  : Nat
  table : Bool
  drop  : Bool := false
  /-- It has reached a scratchpad bank's port, which has admitted it, and waits there (R168, R171). -/
  atPort : Bool := false
  resp  : Option Resp := none
deriving DecidableEq, Repr

/-- One DMA channel. -/
structure Dma where
  st       : DmaSt := .idle
  status   : Nat := 0
  hbErr    : Bool := false
  /-- DMA_CTRL.CTX, DMA_DESC, DMA_PROGRESS, DMA_CUR, DMA_FADDR with FAHI above it. -/
  ctx      : Nat := 0
  desc     : Word := 0
  progress : Nat := 0
  cur      : Word := 0
  faddr    : Nat := 0
  /-- The descriptor in progress; none before it is fetched from DMA_CUR. -/
  now      : Option Desc := none
  /-- Answers of the reads that the channel's present page walk has made: fabric address, length, answer (R330). -/
  tables   : List (Nat × Nat × Resp) := []
  xfer     : Option DmaXfer := none
  out      : Option DmaReq := none
  /-- The fabric cycle from which the next request may leave (R318). -/
  next     : Nat := 0
deriving DecidableEq, Repr

/-! ## Front-end lanes -/

/-- Lane training states (Table 10-4), in the order of LANE_STAT.STATE. -/
inductive LaneSt where
  | disabled | cdr | block | align | hello | active | retrain | retired
deriving DecidableEq, Repr

/-- A held block: sequence number, payload, FEBAD mark (R285). -/
structure Held where
  seq   : BitVec 12
  words : List Word
  febad : Bool
deriving DecidableEq, Repr

/-- What the device sends on FE_TX: a HELLO block, or a control code word of a block type with its other 56 bits (R277, R279). -/
inductive LaneTx where
  | hello (b : FeBlock)
  | code (type : Byte) (body : BitVec 56)
deriving DecidableEq, Repr

/-- An item of FE_TX and the fabric cycle in which it starts at the balls; earlier than the present one, it has been sent (R277). -/
structure FeSend where
  start : Nat
  what  : LaneTx
deriving DecidableEq, Repr

/-- One front-end lane. -/
structure Lane where
  st      : LaneSt := .disabled
  ver     : Nat := 0
  seqlock : Bool := false
  negErr  : Bool := false
  /-- VERS and DISC of the last good HELLO. -/
  fevers  : Nat := 0
  helloSeen : Bool := false
  /-- Consecutive good HELLO blocks with equal VERS and DISC. -/
  helloRun : Nat := 0
  ne      : BitVec 12 := 0
  held    : List Held := []
  resends : List (BitVec 12 × Nat) := []
  /-- NAK timers: sequence number and fabric cycle of expiry. -/
  timers  : List (BitVec 12 × Nat) := []
  /-- Sequence numbers of which a bad copy was captured (Table 10-5 reason 0). -/
  badSeen : List (BitVec 12) := []
  cnt     : Word := 0
  /-- LANE_SCHED as written and as in force. -/
  sched   : Word := 0x70000000#32
  schedOn : Word := 0x70000000#32
  /-- Fabric cycle of the last write of LANE_SCHED, and of the last release point. -/
  schedAt : Nat := 0
  relAt   : Option Nat := none
  /-- The lane has reached ACTIVE since EN was set; it has been sequence-locked. -/
  wasUp   : Bool := false
  wasLocked : Bool := false
  /-- Waiting 10 ms after a failed retrain (R282). -/
  idleWait : Bool := false
  /-- Fabric cycles of failed retrains, and blocks and requests in the window of R297. -/
  fails   : List Nat := []
  winBlocks : Nat := 0
  winReqs : Nat := 0
  /-- HELLO blocks and code words sent or waiting on FE_TX, in the order in which they start. -/
  tx      : List FeSend := []
deriving DecidableEq, Repr

/-- A 32-byte group waiting in a front-end routing unit (R292). -/
structure Group where
  lane  : LaneId
  /-- 1 engine input queue, 2 Foxglove, 3 Pool. -/
  kind  : Nat
  /-- Engine and queue, Gecko, or Pool address of the group. -/
  target : Nat
  queue : Nat
  sched : Bool
  data  : W256
deriving DecidableEq, Repr

/-! ## Chain -/

/-- One chain port. -/
structure ChainPort where
  up     : Bool := false
  /-- Training since EN was set has failed or the port went down; it waits for its retry. -/
  down   : Bool := false
  /-- Capture unit that the time tree holds for the port (R241). -/
  ttUnit : Option Nat := none
  /-- A TIME_REQ has arrived since the port came up: the far end is a package below in the time tree (log 26). -/
  child  : Bool := false
  /-- Packets sent and reduction words sent, oldest first; the order of the channels on the wire is left out (log 97). -/
  tx     : List Packet := []
  /-- The last 32 packets sent, oldest first (R309). -/
  replay : List Packet := []
  redTx  : List Dword := []
  /-- VC1 packets held: due fabric cycle, packet, and the world of its token's object at the check (R308, R392). -/
  vc1    : List (Nat × Packet × World) := []
deriving DecidableEq, Repr

/-- Who asked over the chain. -/
inductive Asker where
  | engine (e : EngineId)
  | channel (c : ChanId)
  | host (s : SlotId)
deriving DecidableEq, Repr

/-- Whose request waits at a target port. -/
inductive BeatUse where
  /-- The outstanding transaction of an engine, or of a DMA channel. -/
  | engine (e : EngineId)
  | channel (c : ChanId)
  /-- A group of a front-end routing unit (R292). -/
  | group (g : Group)
  /-- A push of 32 bytes into an input queue by a road output or a reduction channel (R265, R316). -/
  | push (e : EngineId) (q : Fin 16) (words : List Word) (road : Bool)
  /-- A host request to a fabric address, in the world and with the ROOT right that its token had at the check (R392, R396). -/
  | host (s : SlotId) (addr : Nat) (write : Bool) (len data : Nat) (w : World) (root : Bool)
  /-- A request from a chain port whose token has passed its check, in the world of the token's object then (R304, R392). -/
  | chain (p : PortId) (k : Packet) (w : World)
  /-- A packet of a chain port on its way to the transmit port that it leaves by (R304). -/
  | forward (q : PortId) (k : Packet)
deriving DecidableEq, Repr

/-- Which writes held at an engine's target port a request waits behind (R179, R295, R296): none, held pushes, or any. -/
inductive Behind where
  | nothing
  | pushes
  | any
deriving DecidableEq, Repr

/-- A request on its way through the fabric: the requester's id and QoS, 0xA0 + p where it has arrived on die-to-die port p of the
die (R322), whether a reserved entry has sent it on its way (R323), which held writes at an engine's target port stop it, the
fabric cycle since which it waits where it is, and the target ports that it has still to pass; it waits at the first. -/
structure Beat where
  master : Nat
  qos    : Nat
  via    : Option Nat := none
  sched  : Bool := false
  behind : Behind := .nothing
  since  : Nat := 0
  route  : List (DieId × Nat)
  use    : BeatUse
deriving DecidableEq, Repr

/-- A chain request that awaits its response (R305). -/
structure ChainReq where
  reqid : BitVec 16
  who   : Asker
  sent  : Nat
  write : Bool
  addr  : Nat
  len   : Nat
deriving DecidableEq, Repr

/-- Inputs of one tag on a reduction channel (R315): by source (port number, 4 for local). -/
structure RedTag where
  tag    : BitVec 12
  since  : Nat
  inputs : List (Nat × Dword)
deriving DecidableEq, Repr

/-- One reduction channel: the tags with an input that has not been combined, oldest first. -/
structure Red where
  tags   : List RedTag := []
  /-- Local contributions whose tag still has one to be combined: tag and word, oldest first. -/
  queued : List (BitVec 12 × Dword) := []
deriving DecidableEq, Repr

/-! ## Foxglove -/

/-- An event context (R258). -/
structure FoxCtx where
  /-- Hits as layer and superstrip. -/
  hits   : List (Nat × Nat)
  segon  : BitVec 8
  /-- Formed road words still to output; none while the event is open. -/
  out    : Option (List (BitVec 128))
  /-- Fabric cycle from which the first word may be formed. -/
  ready  : Nat
deriving DecidableEq, Repr

/-- One Foxglove. -/
structure Fox where
  /-- Queued words: the word, whether its four strobes were set, and the first fabric cycle in which it may be applied
  (R257). -/
  queue   : List (Word × Bool × Nat) := []
  /-- Writes held at the target port: 32 bytes, strobes, and the master whose write it is. -/
  waiting : List (W256 × Word × Option Waiter) := []
  /-- Fabric cycle of the last applied word, and how many words were applied in it. -/
  lastApply : Nat := 0
  applied : Nat := 0
  /-- Contexts, oldest first. -/
  ctxs    : List FoxCtx := []
  /-- Fabric cycles in which writes of EN = 0 take effect; an event that is open then is discarded (FOX_CTL). -/
  drops   : List Nat := []
  /-- Formed words not yet taken by the sink. -/
  buf     : List (BitVec 128) := []
  holding : Bool := false
  /-- Register writes not yet in force: the fabric cycle from which each is, the port, and the value before it (R260); for
  FOX_SEGSTAT, the segments that were online before it. -/
  late    : List (Nat × Nat × Word) := []
  /-- Bits of FOX_STAT and FOX_SEGSTAT that register writes clear or set: the fabric cycle from which they do, the port, the bits
  cleared and the bits set (R260). -/
  marks   : List (Nat × Nat × Word × Word) := []
  /-- Writes of FOX_SEGCTL not yet in force: the fabric cycle from which each is, and ONREQ as written (R260). -/
  segReq  : List (Nat × Word) := []
  online  : BitVec 8 := 0
  checking : BitVec 8 := 0
  /-- Fabric cycle at which the check of a segment began. -/
  checkAt : Vector Nat 8 := .replicate 8 0
  /-- Match array: records of the enabled patterns of online segments (R270). -/
  array   : List (Nat × W256) := []
  /-- Elements of the match array that fail their parity: pattern and layer (R270). -/
  parity  : List (Nat × Nat) := []
  excluded : List Nat := []
  /-- Pattern that the scrub compares next, and the fabric cycle of its last comparison. -/
  scrub   : Nat := 0
  scrubAt : Option Nat := none
  /-- Last fabric cycle in which a word was formed. -/
  lastOut : Nat := 0
deriving DecidableEq, Repr

/-! ## Skink -/

/-- An engine bank that Skink holds: engine index on the die, bank, and the word to test next. -/
structure SkinkBank where
  eng  : Fin 16
  bank : Fin 16
  word : Nat := 0
deriving DecidableEq, Repr

/-- One background memory tester: the banks it holds, in the order in which it borrowed them, and where it is in its pass (R193,
R194). -/
structure Skink where
  held  : List SkinkBank := []
  /-- Word to test next in the lent Pool banks. -/
  pool  : Nat := 0
  /-- Fabric cycle before which the next word is not done: ten steps and the idle of GAP. -/
  next  : Nat := 0
deriving DecidableEq, Repr

/-! ## Time -/

/-- Heliotrope states (Table 8-1). -/
inductive HelSt where
  | free | locking | locked | aligned
deriving DecidableEq, Repr

/-- A calibration in progress (R231, R232). -/
structure Calib where
  /-- Exchanges still to make, exchanges made, sums of θ and of the round trip. -/
  left   : Nat
  made   : Nat
  sumTheta : Int
  sumRtt : Int
  /-- Exchange number and t1 of the request awaiting its reply. -/
  asked  : Option (Nat × Dword)
  /-- Period count of the last request, none before the first. -/
  last   : Option Nat := none
  /-- The last request, or the begin of the calibration: the time from which no reply is awaited too long (R233). -/
  since  : Dword
  /-- Parent's DEPTH and ALIGNED in its last reply. -/
  depth  : Nat
  parentAligned : Bool
  /-- The next calibration decides entry into ALIGNED (step 4 of R232). -/
  second : Bool
deriving DecidableEq, Repr

/-- Heliotrope. -/
structure Helio where
  st     : HelSt := .free
  /-- Measured EXPREF frequency in Hz while present. -/
  expref : Option Nat := none
  lockHz : Nat := 0
  /-- Upper word latched by a read of HEL_NOW_LO. -/
  latch  : Word := 0
  /-- The calibration in progress (R229, R231). -/
  cal    : Option Calib := none
  exchNo : Nat := 0
  /-- Phase still to be removed, in fraction units, and the period of the last phase move (R233). -/
  slew   : Int := 0
  slewAt : Option Nat := none
  /-- Period count at which the last calibration began (R233). -/
  calAt  : Nat := 0
  /-- The package has been in ALIGNED since the last entry to LOCKED. -/
  wasAligned : Bool := false
  /-- Multipliers in force on EXPREF; HEL_CFG.K_E and K_F from the next time-base edge (R222). -/
  kE : Nat := 0x28
  kF : Nat := 0x1E
deriving DecidableEq, Repr

/-- A message of the timed-commit protocol on its way to a unit (R248). -/
inductive TcMsg where
  | arm
  /-- ABORT of the commit with this sequence number. -/
  | abort (seq : Nat)
deriving DecidableEq, Repr

/-- The timed-commit agent of Newt 0. -/
structure Coord where
  /-- TC_STAT.STATE: 0 idle, 1 armed, 2 committed, 3 aborted. -/
  st      : Nat := 0
  seq     : Nat := 0
  /-- The protocol was started here (not by an ARM from upstream). -/
  own     : Bool := false
  scope   : Bool := false
  time    : Dword := 0
  ctl     : Word := 0
  /-- Local units of the set, messages on their way to them, ACKs and NAKs on their way back. -/
  units   : List (Fin 108) := []
  toUnit  : List (Fin 108 × TcMsg) := []
  acks    : List (Fin 108) := []
  naks    : List (Fin 108) := []
  acked   : List (Fin 108) := []
  /-- Chain ports the ARM went down on, and those whose subtree has acknowledged. -/
  down    : List PortId := []
  downAcked : List PortId := []
  /-- Port the ARM came from. -/
  up      : Option PortId := none
  ackSent : Bool := false
deriving DecidableEq, Repr

/-! ## Protection -/

/-- Larkspur's staged copy of one side (R399). -/
structure Side where
  item : Word := 0
  val  : Vector Word 4 := .replicate 4 0
deriving DecidableEq, Repr

/-- Last result of Larkspur, in the order of LARK_STAT.LAST. -/
inductive LarkLast where
  | none | committed | mismatch | timeout | refused | busy | sameSide
deriving DecidableEq, Repr

/-- Larkspur (R398 to R404). -/
structure Lark where
  opened   : Bool := true
  sideT    : Side := {}
  sideH    : Side := {}
  proposed : Bool := false
  /-- Side of the last proposal. -/
  side     : World := .T
  prop     : Side := {}
  seq      : BitVec 16 := 0
  alarm    : Bool := false
  last     : LarkLast := .none
  /-- Fabric cycle at which the timer of the proposal started. -/
  since    : Nat := 0
  /-- A confirmed value on its way into force: fabric cycle from which it is (R402). -/
  confirmed : Option Nat := none
  /-- Accesses checked before the commit of an epoch or a key that is in force; it reports completion once they have completed
  (R392). -/
  old      : Option (List BeatUse) := none
  /-- Epochs and keys committed so far. -/
  gen      : Nat := 0
deriving DecidableEq, Repr

/-- An object-table entry (R390). -/
structure Obj where
  valid : Bool
  world : World
  epoch : BitVec 10
deriving DecidableEq, Repr

/-- A host access slot (R395). -/
structure HSlot where
  token : BitVec 128 := 0
  bound : Bool := false
  stale : Bool := false
  err   : Nat := 0
deriving DecidableEq, Repr

/-! ## Package -/

/-- JTAG TAP (R449): instruction register, data register as captured, boundary register. -/
structure Tap where
  ir       : BitVec 8 := 0x02#8
  dr       : BitVec 396 := 0
  boundary : BitVec 396 := 0
deriving DecidableEq, Repr

/-- Input pins: levels (R435). POR_N is high after its release. -/
structure Pins where
  por   : Bool := true
  perst : Bool := true
  halt  : Bool := true
  decIn : BitVec 16 := 0
  /-- What each DEC_OUT drove when time last moved on, which of them have changed in the present reference period, which did not
  change in the last one, and which fine-delay lines have been written since its end (R240). -/
  outLevel : BitVec 32 := 0
  outMoved : BitVec 32 := 0
  outQuiet : BitVec 32 := 0
  fineNew  : BitVec 32 := 0
  i2cA  : Fin 8 := 0
deriving DecidableEq, Repr

/-- PCIe endpoint state beyond its slots: link, MSI-X table page, messages sent (R447, R448). -/
structure Pcie where
  link   : Bool := false
  /-- The standard MSI-X Enable and Function Mask of the configuration space, which no command of the table writes (R448; log 116). -/
  enable : Bool := true
  fmask  : Bool := false
  /-- Link training has begun since PERST_N rose. -/
  training : Bool := false
  bar0   : RegMap := []
  /-- MSI-X pending bits, and vectors sent, oldest first. -/
  pend   : BitVec 64 := 0
  sent   : List Nat := []
  /-- The host's CLM_LAST (R408). -/
  clmLast : Word := 0
deriving DecidableEq, Repr

/-- The whole package. -/
structure State where
  /-- Commands waiting, first in first out. -/
  pending  : List Instr
  engines  : Vector Engine 100
  dies     : Vector Die 8
  dma      : Vector Dma 56
  lanes    : Vector Lane 144
  /-- Groups waiting in the routing unit of Newt 0 and Newt 1, oldest first. -/
  groups   : Vector (List Group) 2
  ports    : Vector ChainPort 4
  chainReqs : List ChainReq
  /-- Requests that wait at target ports, oldest first, but for those that their masters still hold: the first request of each
  engine, and the groups of the routing units (R319). -/
  beats    : List Beat
  /-- Next request identifier of a chain request. -/
  nextReq  : BitVec 16
  /-- STOPs seen: originating device and stop number, newest first (R313); own stop number. -/
  stops    : List (Nat × Nat)
  stopNo   : Nat
  reds     : Vector Red 8
  fox      : Vector Fox 6
  skink    : Vector Skink 6
  /-- Pool, data scratchpads and pattern memory at their local addresses (Table 1-4). -/
  mem      : Memory
  /-- Calibration store, by offset. -/
  cal      : Memory
  /-- Raw error state of a 64-bit word, by bank key × 2^20 + word: 1 one upset bit, 2 uncorrectable, 3 a stuck bit. -/
  ecc      : SMap Nat
  /-- Retired words: word key and the number of the spare used, from 1 (R187). -/
  retired  : SMap Nat
  /-- TIM_NOW, in fraction units (R224), and fabric cycles since POR_N. -/
  timNow   : Dword
  fc       : Nat
  helio    : Helio
  coord    : Coord
  lark     : Lark
  objects  : SMap Obj
  sealKey  : BitVec 128
  /-- World of the last minted token (TKN_TOK reads 0 from the other one). -/
  mintWorld : World
  hslots   : Vector HSlot 64
  /-- Retired front-end lanes (CHAN_MASK). -/
  chanMask : BitVec 144
  /-- Lanes whose retirement bit in the calibration store is not yet up to date (R298, R299). -/
  mapStale : Bool
  pins     : Pins
  /-- Live junction temperatures as codes, one byte per die (R431). -/
  liveTemp : Dword
  /-- The package throttles its Host-service engines (R430). -/
  throttled : Bool
  /-- The supply monitor holds the package in reset (R440). -/
  supplyHold : Bool
  pcie     : Pcie
  tap      : Tap
  i2cIndex : BitVec 16
  i2cData  : Word
  /-- The master's answer to the last register access or host request made by a command. -/
  resp     : Resp
  /-- The model's own count of free values drawn (log 1). -/
  freeCtr  : Nat
deriving DecidableEq, Repr

/-- The Keeper's number (R16). -/
def keeper : EngineId := 96

/-- The package right after POR_N is released and before bring-up (R41, R166, R375, R389, R390, R397, R404, R415):
every engine in MD0 in the Host-service world, the Keeper in MD1 and waiting for the bring-up, every die in MD1, Larkspur open, TIM_NOW 0.
Registers with a reset value of their own are unlisted in their register maps and read as that value. -/
def State.reset : State where
  pending := []
  engines := (Vector.replicate 100 ({} : Engine)).set 96 { mode := 1, held := true }
  dies := .replicate 8 {}
  dma := .replicate 56 {}
  lanes := .replicate 144 {}
  groups := .replicate 2 []
  ports := .replicate 4 {}
  chainReqs := []
  beats := []
  nextReq := 0
  stops := []
  stopNo := 0
  reds := .replicate 8 {}
  fox := .replicate 6 {}
  skink := .replicate 6 {}
  mem := []
  cal := []
  ecc := []
  retired := []
  timNow := 0
  fc := 0
  helio := {}
  coord := {}
  lark := {}
  objects := []
  sealKey := Config.randomKey 0
  mintWorld := .H
  hslots := .replicate 64 {}
  chanMask := 0
  mapStale := false
  pins := {}
  liveTemp := 0
  throttled := false
  supplyHold := false
  pcie := {}
  tap := {}
  i2cIndex := 0
  i2cData := 0
  resp := .ok 0
  freeCtr := 1

/-- Why a run ends with a fault: never. Every fault the manual describes is an effect of a command on the state
(an exception entry, a status, an error response), so no constructor is needed; safe. -/
inductive Fault where
deriving DecidableEq, Repr

/-- Why a command is refused. -/
inductive Refusal where
  /-- The command has no meaning in the model yet: raised by exec only; safe. -/
  | notModelled (mnemonic : String)
deriving DecidableEq, Repr

/-- The three outcomes of a command. -/
abbrev Out := Host.Outcome State Fault Refusal

end Sys2Proof.Machine
end

