-- ==== Sys2Proof/Machine/Mem.lean ====
section
/-!
DEFINITION. Machine/Mem.lean: sparse contents in canonical form, and memory as bytes at local addresses (Table 1-4, R6).
-/
namespace Sys2Proof.Machine

/-- The entry at key k, or what an unlisted key reads as. -/
def smGet {α : Type} (d : Nat → α) : SMap α → Nat → α
  | [], k => d k
  | (i, v) :: m, k => if i = k then v else smGet d m k

/-- The content without key k. -/
def smDel {α : Type} : SMap α → Nat → SMap α
  | [], _ => []
  | (i, v) :: m, k => if i = k then smDel m k else (i, v) :: smDel m k

/-- The content with v at key k, whatever v is. -/
def smIns {α : Type} : SMap α → Nat → α → SMap α
  | [], k, w => [(k, w)]
  | (i, v) :: m, k, w =>
    if i = k then (k, w) :: m else if k < i then (k, w) :: (i, v) :: m else (i, v) :: smIns m k w

/-- The content with v at key k, kept canonical: a default value is not listed. -/
def smPut {α : Type} [DecidableEq α] (d : Nat → α) (m : SMap α) (k : Nat) (v : α) : SMap α :=
  if v = d k then smDel m k else smIns m k v

/-- Keys strictly rising from lo, no entry equal to the default. -/
def smWfFrom {α : Type} [DecidableEq α] (d : Nat → α) : Nat → SMap α → Bool
  | _, [] => true
  | lo, (i, v) :: m => decide (lo ≤ i) && decide (v ≠ d i) && smWfFrom d (i + 1) m

/-- The canonical form. -/
def smWf {α : Type} [DecidableEq α] (d : Nat → α) (m : SMap α) : Bool := smWfFrom d 0 m

/-- What an unlisted byte of memory reads as (log 4). -/
def emptyByte : Nat → Byte := fun _ => 0#8

/-- The canonical form of memory. -/
def Memory.wf (m : Memory) : Bool := smWf emptyByte m

/-- Byte a of memory. -/
def memByte (m : Memory) (a : Nat) : Byte := smGet emptyByte m a
/-- Memory with byte b at a. -/
def memSet (m : Memory) (a : Nat) (b : Byte) : Memory := smPut emptyByte m a b

/-- The n bytes from a, as a little-endian number (R6). -/
def memNat (m : Memory) (a : Nat) : Nat → Nat
  | 0 => 0
  | n + 1 => (memByte m a).toNat + 256 * memNat m (a + 1) n

/-- Memory with the low n bytes of x from a, where the strobe of the byte is set (bit j for byte j). -/
def memWrite (m : Memory) (a : Nat) : Nat → Nat → Nat → Memory
  | 0, _, _ => m
  | n + 1, strobe, x =>
    memWrite (if strobe % 2 = 1 then memSet m a (BitVec.ofNat 8 x) else m) (a + 1) n (strobe / 2) (x / 256)

/-- All strobes of n bytes. -/
def fullStrobe (n : Nat) : Nat := 2 ^ n - 1

/-- Memory with n bytes of x from a. -/
def memPut (m : Memory) (a n x : Nat) : Memory := memWrite m a n (fullStrobe n) x

/-- The entries of a content whose key lies in [lo, hi). -/
def smRange {α : Type} (m : SMap α) (lo hi : Nat) : SMap α := m.filter (fun p => lo ≤ p.1 && p.1 < hi)

/-- The content without the entries whose key lies in [lo, hi). -/
def smClear {α : Type} (m : SMap α) (lo hi : Nat) : SMap α := m.filter (fun p => !(lo ≤ p.1 && p.1 < hi))

end Sys2Proof.Machine
end

