-- ==== Sys2Proof/Machine/Ops.lean ====
section
/-!
DEFINITION. Machine/Ops.lean: the named operations over the parts of the state: engines, dies, their registers, interrupt
lines (R371), host interrupts (R448), worlds and the own device id.
-/
namespace Sys2Proof.Machine

/-! ## Parts of the state -/

/-- Engine e. -/
def State.eng (s : State) (e : EngineId) : Engine := s.engines[e]
/-- Engine e changed by f. -/
def State.modEng (s : State) (e : EngineId) (f : Engine → Engine) : State :=
  { s with engines := s.engines.set e (f s.engines[e]) }
/-- Every engine changed by f. -/
def State.mapEng (s : State) (f : EngineId → Engine → Engine) : State :=
  { s with engines := .ofFn fun e => f e s.engines[e] }
/-- Die d. -/
def State.die (s : State) (d : DieId) : Die := s.dies[d]
/-- Die d changed by f. -/
def State.modDie (s : State) (d : DieId) (f : Die → Die) : State :=
  { s with dies := s.dies.set d (f s.dies[d]) }
/-- DMA channel c changed by f. -/
def State.modDma (s : State) (c : ChanId) (f : Dma → Dma) : State :=
  { s with dma := s.dma.set c (f s.dma[c]) }
/-- Lane l changed by f. -/
def State.modLane (s : State) (l : LaneId) (f : Lane → Lane) : State :=
  { s with lanes := s.lanes.set l (f s.lanes[l]) }
/-- Chain port p changed by f. -/
def State.modPort (s : State) (p : PortId) (f : ChainPort → ChainPort) : State :=
  { s with ports := s.ports.set p (f s.ports[p]) }
/-- Reduction channel c changed by f. -/
def State.modRed (s : State) (c : RedId) (f : Red → Red) : State :=
  { s with reds := s.reds.set c (f s.reds[c]) }
/-- Foxglove g changed by f. -/
def State.modFox (s : State) (g : GeckoId) (f : Fox → Fox) : State :=
  { s with fox := s.fox.set g (f s.fox[g]) }
/-- Skink g changed by f. -/
def State.modSkink (s : State) (g : GeckoId) (f : Skink → Skink) : State :=
  { s with skink := s.skink.set g (f s.skink[g]) }
/-- Host slot i changed by f. -/
def State.modSlot (s : State) (i : SlotId) (f : HSlot → HSlot) : State :=
  { s with hslots := s.hslots.set i (f s.hslots[i]) }

/-! ## Numbering (Table 1-1) -/

/-- Newt 0 and Newt 1 (R15). -/
def newt0 : DieId := 6
def newt1 : DieId := 7
/-- Newt n as a die. -/
def newtDie (n : Fin 2) : DieId := if n = 0 then 6 else 7
/-- Gecko g as a die. -/
def geckoDie (g : GeckoId) : DieId := ⟨g.val, by omega⟩
/-- Whether a die is a Gecko. -/
def isGecko (d : DieId) : Bool := d.val < 6
/-- The die of an engine (Table 1-1). -/
def engDie (e : EngineId) : DieId :=
  if h : e.val < 96 then ⟨e.val / 16, by omega⟩ else if e.val < 98 then 6 else 7
/-- The local index of an engine on its die (Table 8-5). -/
def engIndex (e : EngineId) : Nat := if e.val < 96 then e.val % 16 else e.val % 2
/-- Engines of a die. -/
def dieEngines (d : DieId) : List EngineId := (List.finRange 100).filter fun e => engDie e = d
/-- Engine of a die by local index, if there is one. -/
def engOf (d : DieId) (j : Nat) : Option EngineId :=
  if h : d.val < 6 ∧ j < 16 then some ⟨16 * d.val + j, by omega⟩
  else if h : 6 ≤ d.val ∧ j < 2 then some ⟨96 + 2 * (d.val - 6) + j, by have := d.isLt; omega⟩
  else none
/-- The neighbour that code 0x2 (down) or 0x3 (up) names, counted within a die (R164). -/
def neighbour (e : EngineId) (up : Bool) : EngineId :=
  if h : e.val < 96 then
    ⟨16 * (e.val / 16) + (e.val % 16 + (if up then 1 else 15)) % 16, by omega⟩
  else if e.val = 96 then 97 else if e.val = 97 then 96 else if e.val = 98 then 99 else 98
/-- The die of a DMA channel and its local number (Table 1-1). -/
def chanDie (c : ChanId) : DieId :=
  if h : c.val < 48 then ⟨c.val / 8, by omega⟩ else if c.val < 52 then 6 else 7
def chanLocal (c : ChanId) : Nat := if c.val < 48 then c.val % 8 else c.val % 4
/-- Channel of a die by local number, if there is one. -/
def chanOf (d : DieId) (k : Nat) : Option ChanId :=
  if h : d.val < 6 ∧ k < 8 then some ⟨8 * d.val + k, by omega⟩
  else if h : 6 ≤ d.val ∧ k < 4 then some ⟨48 + 4 * (d.val - 6) + k, by have := d.isLt; omega⟩
  else none
/-- The Newt of a lane, its local number, its quad and the quad's number on the die. -/
def laneNewt (l : LaneId) : Fin 2 := if l.val < 72 then 0 else 1
def laneLocal (l : LaneId) : Nat := l.val % 72
def laneQuad (l : LaneId) : QuadId := ⟨l.val / 4, by omega⟩
def quadNewt (q : QuadId) : Fin 2 := if q.val < 18 then 0 else 1
def quadLanes (q : QuadId) : List LaneId := (List.finRange 144).filter fun l => laneQuad l = q
/-- Lane of a Newt by local number. -/
def laneOf (n : Fin 2) (l : Nat) : Option LaneId := if h : l < 72 then some ⟨72 * n.val + l, by omega⟩ else none
/-- The Newt of a chain port. -/
def portNewt (p : PortId) : Fin 2 := if p.val < 2 then 0 else 1

/-! ## Registers -/

/-- Reset value of an engine register (the register tables). -/
def ioReset (port : Nat) : Word :=
  if port = 0x800 then 3
  else if port = 0x860 then 0x7E
  else if port = 0x8A8 then 8
  else if 0xB20 ≤ port ∧ port ≤ 0xB2C then 0x08000000
  else 0

/-- Reset value of a register of die d (the register tables). -/
def dieReset (d : DieId) (port : Nat) : Word :=
  if port = 0x4000 then 4
  else if 0x7D40 ≤ port ∧ port < 0x7D50 then
    (if isGecko d then (if port % 8 = 0 then 0x76543210 else 0xFEDCBA98) else 0x10)
  else if isGecko d then
    (if port = 0x4020 then 0x00040100 else if port = 0x6000 then 0x01000600 else 0)
  else if 0x3000 ≤ port ∧ port < 0x3048 then 8
  else if port = 0x3700 then 0x33E81040
  else if d = newt0 then
    (if port = 0x5000 then 0x00281E04
     else if port = 0x5010 then 1
     else if port = 0x5400 then 0x0F000190
     else if 0x5900 ≤ port ∧ port < 0x5A00 then 0xFFFFFFFF
     else if 0x5A00 ≤ port ∧ port < 0x5A80 ∧ port % 16 = 12 then 0x40
     else 0)
  else 0

/-- Stored register of engine e at a port. -/
def Engine.ioGet (g : Engine) (port : Nat) : Word := smGet ioReset g.io port
/-- Engine with a stored register set. -/
def Engine.ioPut (g : Engine) (port : Nat) (v : Word) : Engine := { g with io := smPut ioReset g.io port v }
def State.ioGet (s : State) (e : EngineId) (port : Nat) : Word := (s.eng e).ioGet port
def State.ioPut (s : State) (e : EngineId) (port : Nat) (v : Word) : State := s.modEng e (·.ioPut port v)
/-- Stored register of die d at a port. -/
def State.dGet (s : State) (d : DieId) (port : Nat) : Word := smGet (dieReset d) (s.die d).regs port
/-- State with a stored die register set. -/
def State.dPut (s : State) (d : DieId) (port : Nat) (v : Word) : State :=
  s.modDie d fun x => { x with regs := smPut (dieReset d) x.regs port v }
/-- A stored die register of Newt 0. -/
def State.n0 (s : State) (port : Nat) : Word := s.dGet newt0 port
def State.n0Put (s : State) (port : Nat) (v : Word) : State := s.dPut newt0 port v
/-- Change a stored register. -/
def State.ioMod (s : State) (e : EngineId) (port : Nat) (f : Word → Word) : State := s.ioPut e port (f (s.ioGet e port))
def State.dMod (s : State) (d : DieId) (port : Nat) (f : Word → Word) : State := s.dPut d port (f (s.dGet d port))
def State.n0Mod (s : State) (port : Nat) (f : Word → Word) : State := s.dMod newt0 port f

/-- Physical engine of logical engine j of die d: the active ENG_MAP bank (R427). -/
def State.physEng (s : State) (d : DieId) (j : Nat) : Option EngineId :=
  engOf d (fld (s.dGet d (0x7D40 + 8 * b2n (s.die d).active + 4 * (j / 8))) (4 * (j % 8) + 3) (4 * (j % 8)))
/-- Physical engine of a logical engine number 0 to 99 (R427). -/
def State.physOf (s : State) (n : Nat) : Option EngineId :=
  if h : n < 100 then s.physEng (engDie ⟨n, h⟩) (engIndex ⟨n, h⟩) else none

/-- Apply f for every element in order. -/
def forAll {α : Type} (l : List α) (s : State) (f : α → State → State) : State := l.foldl (fun t a => f a t) s

/-! ## Worlds, modes, identity -/

/-- Own device id: CHN_ID.DEVID (R23, R24). -/
def State.devId (s : State) : Nat := fld (s.n0 0x5800) 8 0
/-- The world of an engine (WLD_ENG, R375). -/
def State.world (s : State) (e : EngineId) : World := (s.eng e).world
/-- Bit i of WLD_ENG: 0 Trigger, 1 Host-service. -/
def worldBit : World → Nat
  | .T => 0 | .H => 1
def otherWorld : World → World
  | .T => .H | .H => .T
/-- MD1 to MD9 are the running modes (R412). -/
def runningMode (m : Fin 12) : Bool := 1 ≤ m.val && m.val ≤ 9
def Engine.running (g : Engine) : Bool := runningMode g.mode && !g.held
/-- MD4, MD5 and MD7 are the throughput modes. -/
def throughput (m : Fin 12) : Bool := m.val == 4 || m.val == 5 || m.val == 7
/-- MD2, MD3, MD6, MD8 and MD9: the modes that R230 and R417 name. -/
def determ (m : Fin 12) : Bool := m.val == 2 || m.val == 3 || m.val == 6 || m.val == 8 || m.val == 9

/-! ## Interrupt lines (R371, R372) -/

/-- Set line n of an engine's INT_PEND; lines 8 to 15 are never set (R371). -/
def Engine.setLine (g : Engine) (n : Nat) : Engine :=
  if n < 32 then (if 8 ≤ n ∧ n < 16 then g else g.ioPut 0x8CC (setBit (g.ioGet 0x8CC) n true))
  else g.ioPut 0x8D0 (setBit (g.ioGet 0x8D0) (n - 32) true)
def State.setLine (s : State) (e : EngineId) (n : Nat) : State := s.modEng e (·.setLine n)
/-- Set a line on every engine of the package. -/
def State.lineAll (s : State) (n : Nat) : State := s.mapEng fun _ g => g.setLine n
/-- Set a line on every Trigger-world engine. -/
def State.lineT (s : State) (n : Nat) : State := s.mapEng fun _ g => if g.world = .T then g.setLine n else g
/-- Set a line on every engine of a die. -/
def State.lineDie (s : State) (d : DieId) (n : Nat) : State :=
  s.mapEng fun e g => if engDie e = d then g.setLine n else g

/-! ## Host interrupts (R448) -/

/-- Reset value of the host page: an MSI-X vector is masked (vector control bit 0), the rest is 0. -/
def bar0Reset (off : Nat) : Word := if 0xC00 ≤ off ∧ off < 0x1000 ∧ off % 16 = 12 then 1 else 0
def State.bar0 (s : State) (off : Nat) : Word := smGet bar0Reset s.pcie.bar0 off

/-- Send MSI-X vector n: recorded as sent where the link is up and the vector is not masked, else pending. -/
def State.msi (s : State) (n : Nat) : State :=
  if !s.pcie.enable || !s.pins.perst then s
  else if s.pcie.fmask || bitOf (s.bar0 (0xC00 + 16 * n + 12)) 0 || !s.pcie.link then
    { s with pcie := { s.pcie with pend := setBit s.pcie.pend n true } }
  else { s with pcie := { s.pcie with sent := s.pcie.sent ++ [n] } }

/-! ## Reset (R435, R440) -/

/-- The package is in reset: POR_N is low, or the supply monitor holds it. -/
def State.inReset (s : State) : Bool := s.supplyHold || !s.pins.por
/-- The host reaches the endpoint: it is out of reset and its link is up (R442, R447). -/
def State.hostUp (s : State) : Bool := !s.inReset && s.pins.perst && s.pcie.link

/-! ## Free values -/

/-- Draw a free value: the count that names it, and the state with the count advanced (log 1). -/
def State.draw (s : State) : State := { s with freeCtr := s.freeCtr + 1 }

/-- Record the answer of a register access or host request made by a command. -/
def State.answer (s : State) (r : Resp) : State := { s with resp := r }

end Sys2Proof.Machine
end

