-- ==== Sys2Proof/Machine/RegTable.lean ====
section
/-!
DEFINITION. Machine/RegTable.lean: which registers exist, their widths and fields by access code (R8, R9), and the worlds
and levels their World lines name (R374). The special behaviour of single registers stands in the files of their chapters.
-/
namespace Sys2Proof.Machine

/-- The World line of a register (R374). -/
inductive WRule where
  /-- Either world at any level. -/
  | all
  /-- Either level of the engine's world. -/
  | ownAny
  /-- Either level of the engine's world, and any other master through the alias. -/
  | ownAnyAlias
  /-- Supervisor of the engine's world. -/
  | ownSup
  /-- Supervisor of the engine's world, and other masters through the I/O alias. -/
  | ownSupAlias
  /-- TS of a Trigger-world engine. -/
  | winTs
  /-- HS. -/
  | hs
  /-- TS. -/
  | ts
  /-- TS and HS (and the host, which acts with the world of its token). -/
  | tsHs
  /-- HS and the host whatever the world of its token. -/
  | hsHost
  /-- TS, HS, and the host with ROOT only. -/
  | tsHsRoot
  /-- Supervisor of the given world. -/
  | supOf (w : World)
  /-- ENG_DOORBELL: supervisor of the engine's world by pio, every engine and context through the alias. -/
  | doorbell
  /-- DEC_STAGEk: read by all, written by the holder of DEC_OUTk. -/
  | decStage
  /-- DEC_FD: the world that holds the output's claim, supervisor. -/
  | decFd
  /-- A timer: read and written from its holder's world, supervisor. -/
  | timer
deriving DecidableEq, Repr

/-- Width in bytes and fields of a register: bits that a write sets, that a 1 clears, that a read clears; and the bits a
read shows (WO bits and reserved bits read 0). -/
structure RegInfo where
  width : Nat := 4
  rw    : Nat := 0
  w1c   : Nat := 0
  rc    : Nat := 0
  rule  : WRule := .tsHs
deriving DecidableEq, Repr

/-- Whether n lies in [lo, hi]. -/
def within (n lo hi : Nat) : Bool := lo ≤ n && n ≤ hi

/-- The register of an engine at a port, by its first byte (Table 16-1); DEC_STAGE lies on the Newts (R461). -/
def ioInfo (p : Nat) : Option RegInfo :=
  if p % 4 ≠ 0 then none
  else if within p 0x40 0x7C then some { rule := .ownAny }
  else if p = 0x80 then some { w1c := 0xFFFFFFFF, rule := .ownAny }
  else if p = 0x84 then some { w1c := 0xFFFF, rule := .ownAny }
  else if p = 0x800 then some { rw := 0x3, rule := .ownSup }
  else if p = 0x804 then some { rc := 0xFFFFFFFF, rule := .ownSup }
  else if p = 0x810 ∨ p = 0x814 then some { rw := 0xFFFFFFFF, rule := .ownSupAlias }
  else if p = 0x818 ∨ p = 0x81C then some { rule := .ownSupAlias }
  else if p = 0x820 then some { rw := 0x7FFF, rule := .ownSupAlias }
  else if p = 0x824 then some { rule := .ownSupAlias }
  else if p = 0x840 then some { rw := 0x1, rc := 0xFFFF0000, rule := .ownSup }
  else if p = 0x860 then some { rw := 0x7E, rule := .ownSup }
  else if p = 0x864 then some { rc := 0xFFFF000F, rule := .ownSup }
  else if p = 0x868 then some { rc := 0xFFFFFFFF, rule := .ownSup }
  else if p = 0x870 then some { rc := 0xFFFF0000, rule := .ownSup }
  else if p = 0x874 ∨ p = 0x878 then some { rule := .ownAny }
  else if p = 0x880 ∨ p = 0x884 then some { rule := .ownAnyAlias }
  else if p = 0x888 then some { rule := .ownSupAlias }
  else if p = 0x88C then some { rw := 0xFFFF, rule := .ownSup }
  else if p = 0x890 then some { w1c := 0x100, rc := 0xFF, rule := .ownSup }
  else if p = 0x894 then some { rc := 0xFFFF0000, rule := .ownSup }
  else if p = 0x8A0 then some { rw := 0x07FFFFFF, rule := .hs }
  else if p = 0x8A4 then some { rule := .hs }
  else if p = 0x8A8 then some { rw := 0xF, rule := .ownSup }
  else if p = 0x8C0 then some { rw := 0x0FFF0001, rule := .ownSup }
  else if p = 0x8C4 ∨ p = 0x8C8 then some { rw := 0xFFFFFFFF, rule := .ownSup }
  else if p = 0x8CC then some { w1c := 0xFFFFFFFF, rule := .ownSup }
  else if p = 0x8D0 then some { w1c := 0xFFFF0000, rule := .ownSup }
  else if p = 0x8D4 then some { rule := .doorbell }
  else if p = 0x8D8 then some { w1c := 0xF, rule := .ownSup }
  else if within p 0x900 0x9FC then some { rule := .ownSup }
  else if within p 0xA00 0xAFC then
    some { rw := if p % 16 = 0 then 0xFFFFF01F else if p % 16 = 4 then 0xFFFFF000
                 else if p % 16 = 8 then 0xFF else 0x7F0F, rule := .winTs }
  else if p = 0xB00 then some { rc := 0xFFFFFFFF, rule := .ownSup }
  else if p = 0xB10 then some { rw := 0x7, rule := .ownSup }
  else if within p 0xB20 0xB2C then some { rw := 0x0FFF0FFF, rule := .ownSup }
  else if p = 0xB30 then some { rule := .ownSup }
  else if within p 0x1000 0x15FC then some { rule := .ownSup }
  else none

/-- Fields of a DEC_FD, capture, DIN_TS and other registers of the Newts (Tables 16-2 and 16-3). -/
def newtInfo (d : DieId) (p : Nat) : Option RegInfo :=
  if within p 0x3000 0x3044 then some { rw := 0xF0FFFFFF, w1c := 0x08000000 }
  else if within p 0x3100 0x321C then some { w1c := 0x01000000 }
  else if within p 0x3300 0x341C then some { rw := 0x703F0FFF }
  else if within p 0x3500 0x361C then some { rc := 0xFFFFFFFF }
  else if p = 0x3700 then some { rw := 0xFFFFFFF0 }
  else if p = 0x3704 then some { rw := 0x8000007F }
  else if p = 0x3708 then some { w1c := 0x3 }
  else if within p 0x5100 0x51FC then
    (if p % 16 = 0 then some { rw := 0x000F0003, w1c := 0x40000000 }
     else if p % 16 = 12 then none else some {})
  else if within p 0x5200 0x523C then some { rw := 0x01FF0000, rule := .decFd }
  else if p = 0x5300 then some { rw := 0xFF }
  else if within p 0x5810 0x581C then
    (if p % 8 = 0 then some { rw := 0x83FF0FFF, w1c := 0x40000000 } else some {})
  else if within p 0x6000 0x71FC then
    (if p % 16 = 12 then none else some { rw := if p % 16 = 0 then 0x73 else if p % 16 = 4 then 0xFFFFFFFF else 0xF })
  else if p = 0x7D04 then some { rw := 0x1F }
  else if d ≠ newt0 then none
  else if within p 0x2000 0x23FC then some { rw := 0xFFFFFFFF, rule := .supOf .T }
  else if within p 0x2400 0x27FC then some { rw := 0xFFFFFFFF, rule := .supOf .H }
  else if p = 0x5000 then some { rw := 0xFCFFFFFF }
  else if p = 0x5004 then some { w1c := 0x00F00000 }
  else if p = 0x5008 ∨ p = 0x500C ∨ p = 0x5014 ∨ p = 0x5018 then some {}
  else if p = 0x5010 then some { rw := 0x3 }
  else if p = 0x501C then some { rw := 0xFFFFFFFF }
  else if p = 0x5020 then some { rw := 0xFFFF }
  else if p = 0x5400 then some { rw := 0x4FF0FFFF }
  else if within p 0x5404 0x5418 then some { rw := if p = 0x5410 then 0xFFF else 0xFFFFFFFF }
  else if within p 0x5420 0x542C then some { rw := if p = 0x542C then 0xFFF else 0xFFFFFFFF }
  else if p = 0x5430 then some { w1c := 0x00800000 }
  else if p = 0x5800 then some { rw := 0x1FF, rule := .hs }
  else if p = 0x5804 then some { rw := 0x31FF0001, rule := .hs }
  else if p = 0x5808 then some { w1c := 0x3FF0, rc := 0xFFFF0000 }
  else if within p 0x5900 0x59FC then some { rw := 0xFFFFFFFF, rule := .hs }
  else if within p 0x5A00 0x5A7C then
    some { rw := if p % 16 = 0 then 0xFF1F7F0F else if p % 16 = 4 then 0 else 0xFFF, rule := .ts }
  else if p = 0x7600 then some { rw := 0xFFFF, rule := .tsHsRoot }
  else if within p 0x7604 0x7610 then some { rw := 0xFFFFFFFF, rule := .tsHsRoot }
  else if within p 0x7614 0x762C then some { rule := .tsHsRoot }
  else if p = 0x7630 then some { w1c := 0x08000000, rule := .tsHsRoot }
  else if p = 0x7634 then some { rule := .tsHsRoot }
  else if within p 0x7640 0x766C then some {}
  else if within p 0x7680 0x76FC then some {}
  else if p = 0x7700 then some { rw := 0xFFF }
  else if p = 0x7704 then some {}
  else if p = 0x7710 then some { rw := 0xFFFF0FFF }
  else if p = 0x7714 then some { rw := 0xFFFFFFFF }
  else if p = 0x7718 then some { rw := 0x3FFF }
  else if within p 0x7720 0x772C then some {}
  else if p = 0x7730 then some { rc := 0xFFFF }
  else if within p 0x7C00 0x7C7C then
    some { rw := if p % 16 = 0 then 0x807F000F else if p % 16 = 12 then 0xFFFF else 0xFFFFFFFF, rule := .timer }
  else if within p 0x7E00 0x7E24 then some {}
  else if p = 0x7F00 ∨ p = 0x7F04 then some {}
  else if p = 0x7F08 then some { w1c := 0x2 }
  else if p = 0x7F20 then some {}
  else if p = 0x7F24 then some { rw := 0x7FFFFF, rule := .hsHost }
  else if p = 0x7F28 then some {}
  else if p = 0x7F40 then some {}
  else none

/-- Registers of the Geckos only. -/
def geckoInfo (p : Nat) : Option RegInfo :=
  if p = 0x4010 then some { rw := 0xFFFF, rule := .hs }
  else if p = 0x4020 then some { rw := 0x80FFFFFF }
  else if p = 0x4024 then some { w1c := 0xC0000000, rc := 0x3FFF0FFF }
  else if p = 0x6000 then some { rw := 0x8FFF0F00 }
  else if p = 0x6004 then some { w1c := 0xF8000000, rc := 0xFFFF }
  else if p = 0x6008 then some { rw := 0xFF }
  else if p = 0x600C then some { rw := 0xFF }
  else if p = 0x6010 then some { w1c := 0x00FF0000 }
  else if p = 0x6014 then some { rw := 0x800000FF }
  else if p = 0x6018 then some { rc := 0xFFFFFFFF }
  else if within p 0x6020 0x603C then some { rw := 0xFFFFFFFF }
  else if within p 0x6100 0x61FC then
    (if p % 32 < 16 then some { rw := 0xFFFFFFFF } else if p % 32 = 16 then some { rw := 0xFFFF } else none)
  else none

/-- Whether Table 8-5 lists target port t for die d. -/
def portListed (d : DieId) (t : Nat) : Bool :=
  if isGecko d then within t 0 0x21 || within t 0x28 0x2B || t == 0x2F
  else t == 0x10 || t == 0x11 || within t 0x28 0x2D || t == 0x2F || t == 0x30 || t == 0x31

/-- A slot-table entry's bank, target port and index (R245). -/
def slotPort (p : Nat) : Nat × Nat × Nat :=
  ((p - 0x8000) / 0x4000, (p - 0x8000) % 0x4000 / 0x100, (p - 0x8000) % 0x100 / 2)

/-- The register of die d at a port, by its first byte (Tables 16-2 and 16-3; DEC_STAGE by R461). -/
def dieInfo (d : DieId) (p : Nat) : Option RegInfo :=
  if !isGecko d && within p (0x100 + 16 * (d.val - 6)) (0x10F + 16 * (d.val - 6)) then
    some { width := 1, rw := 1, rule := .decStage }
  else if within p 0x8000 0xFFFF then
    (let (_, t, i) := slotPort p
     if p % 2 = 0 ∧ i < 120 ∧ portListed d t then some { width := 2, rw := 0x80FF } else none)
  else if p % 4 ≠ 0 then none
  else if p = 0x4000 then some { rw := 0x10F }
  else if p = 0x4004 then some { rc := 0xFFFFFFFF }
  else if p = 0x4008 then some { w1c := 0x80000000 }
  else if within p 0x4100 0x41FC then some { rule := .all }
  else if within p 0x4200 0x4210 then some { w1c := if p = 0x4210 then 0xFFFF else 0xFFFFFFFF }
  else if p = 0x5600 then some { rw := 0x2, w1c := 0x4 }
  else if within p 0x7400 0x74FC then
    (if p % 32 < 24 ∧ (isGecko d ∨ p < 0x7480) then
       some { rw := if p % 32 = 0 then 0x3F else if p % 32 = 4 then 0xFFFFFFE0 else 0,
              w1c := if p % 32 = 8 then 1 else 0 }
     else none)
  else if p = 0x7500 then some { rw := if isGecko d then 0xFF else 0xF }
  else if p = 0x7504 then some { w1c := 0x400 }
  else if p = 0x7510 then some { rc := 0xFFFFFF00 }
  else if within p 0x7800 0x79FC then some { rw := if p % 8 = 0 then 0xE000007F else 0x07FFFFFF }
  else if within p 0x7A00 0x7BBC then some {}
  else if p = 0x7D00 then some {}
  else if within p 0x7D40 0x7D4C then
    (if p % 8 = 4 ∧ !isGecko d then none else some { rw := 0xFFFFFFFF })
  else if isGecko d then geckoInfo p
  else newtInfo d p

/-- Whether some register of a die covers the port without beginning there (R123). -/
def dieCovers (d : DieId) (p : Nat) : Bool :=
  (dieInfo d (p / 4 * 4)).any (fun r => r.width == 4) || (dieInfo d (p / 2 * 2)).any (fun r => r.width == 2)
/-- Whether some register of an engine covers the port. -/
def ioCovers (p : Nat) : Bool := (ioInfo (p / 4 * 4)).isSome

/-- The register that pio port p of engine e reaches (R452, R453, R461). -/
def pioTarget (e : EngineId) (p : Nat) : Option Target :=
  if within p 0x100 0x11F then some (.die (if p < 0x110 then 6 else 7) p)
  else if p < 0x2000 then (if ioCovers p then some (.io e p) else none)
  else
    let d := engDie e
    if (dieInfo d p).isSome ∨ dieCovers d p then some (.die d p)
    else if (newtInfo newt0 p).isSome && !(newtInfo newt1 p).isSome then some (.die newt0 p)
    else if dieCovers newt0 p && !(dieCovers newt1 p) && p < 0x8000 then some (.die newt0 p)
    else none

/-- Whether the port is of the engine or of the engine's own die (R122). -/
def pioLocal (e : EngineId) (t : Target) : Bool :=
  match t with
  | .io f _ => f = e
  | .die d _ => engDie e = d
  | .bar0 _ => false

/-- The register of a target, by its first byte. -/
def targetInfo : Target → Option RegInfo
  | .io _ p => ioInfo p
  | .die d p => dieInfo d p
  | .bar0 _ => some {}

/-- Whether a register covers the target without beginning there. -/
def targetCovers : Target → Bool
  | .io _ p => ioCovers p
  | .die d p => dieCovers d p
  | .bar0 _ => false

end Sys2Proof.Machine
end

