-- ==== Sys2Proof/Machine/Access.lean ====
section
/-!
DEFINITION. Machine/Access.lean: world and level of every master (R373), tokens by their fields (R388), the admission of an
access by a register's World line (R374, R460) and the world partition (R378 to R380).
-/
namespace Sys2Proof.Machine

/-! ## Tokens (R388) -/

abbrev Token := BitVec 128

def tokIndex (t : Token) : Nat := fld t 11 0
def tokIssuer (t : Token) : Nat := fld t 20 12
def tokRights (t : Token) : BitVec 16 := BitVec.ofNat 16 (fld t 39 24)
def tokBase (t : Token) : Nat := fld t 79 40
def tokLog (t : Token) : Nat := fld t 85 80
def tokEpoch (t : Token) : Nat := fld t 95 86
def tokSeal (t : Token) : Word := BitVec.ofNat 32 (fld t 127 96)
/-- RIGHTS bits of Table 13-5. -/
def rRD : Nat := 0
def rWR : Nat := 1
def rREG : Nat := 2
def rDBELL : Nat := 3
def rROOT : Nat := 15

/-- Object of a token (R390); at POR_N object 0 is valid in the Host-service world with epoch 0. -/
def objDefault (i : Nat) : Obj := { valid := i = 0, world := .H, epoch := 0 }
def State.obj (s : State) (i : Nat) : Obj := smGet objDefault s.objects i

/-- The implicit token of slot 0 while Larkspur is open: the whole local space, RD, WR, REG and ROOT, object 0 (R397). -/
def State.implicitToken (s : State) : Token :=
  BitVec.ofNat 128 (s.devId * 2 ^ 12 + 0x8007 * 2 ^ 24 + s.devId * 2 ^ 31 * 2 ^ 40 + 31 * 2 ^ 80)
/-- The token of a host slot (R395, R397). -/
def State.slotToken (s : State) (i : SlotId) : Token :=
  if s.lark.opened && i = 0 then s.implicitToken else s.hslots[i].token

/-! ## Masters -/

/-- World and level with which an access acts, and who makes it (Table 13-1). -/
structure Access where
  eng    : Option EngineId := none
  world  : World
  sup    : Bool
  /-- A host token with ROOT: either world (R460). -/
  root   : Bool := false
  host   : Bool := false
  /-- The access comes over the register aliases. -/
  viaAlias : Bool := true
deriving DecidableEq, Repr

/-- World of context n of die d (DMA_CTXn word 0). -/
def State.ctxWorld (s : State) (d : DieId) (n : Nat) : World := if bitOf (s.dGet d (0x7800 + 8 * n)) 30 then .H else .T
/-- The engine a context names. -/
def State.ctxEngine (s : State) (d : DieId) (n : Nat) : EngineId :=
  ⟨fld (s.dGet d (0x7800 + 8 * n)) 6 0 % 100, by omega⟩

/-- The context that a channel acts with: that of its descriptor, and of DMA_CTRL while it has none (R321, R334, R337). -/
def Dma.context (x : Dma) : Nat := match x.now with | some d => d.ctx | none => x.ctx

/-- The access of a master (R373). -/
def accessOf (s : State) : Master → Access
  | .pio e => { eng := some e, world := s.world e, sup := (s.eng e).sup, viaAlias := false }
  | .alias_ e => { eng := some e, world := s.world e, sup := (s.eng e).sup }
  | .dma c => { world := s.ctxWorld (chanDie c) s.dma[c].context, sup := true }
  | .host i =>
    let t := s.slotToken i
    { world := (s.obj (tokIndex t)).world, sup := true, root := bitOf (tokRights t) rROOT, host := true }
  | .chain w => { world := w, sup := true }

/-! ## World lines (R374) -/

/-- The claim of register index r of die d (R407). -/
def State.claimOf (s : State) (d : DieId) (r : Nat) : Option Claim := smGet (fun _ => none) (s.die d).claims r

/-- Claim of a register that follows its holder: DEC_FD and DEC_STAGE of DEC_OUTk, timers. -/
def holderClaim (s : State) (t : Target) : Option Claim :=
  match t with
  | .die d p =>
    if within p 0x5200 0x523C then s.claimOf d (0x40 + (p - 0x5200) / 4)
    else if within p 0x100 0x11F then s.claimOf d (0x40 + p % 16)
    else if within p 0x7C00 0x7C7C then s.claimOf d (0x68 + (p - 0x7C00) / 16)
    else none
  | _ => none

/-- The world of the engine whose register it is. -/
def targetWorld (s : State) : Target → World
  | .io e _ => s.world e
  | _ => .H

/-- A refusal by world or level, none where the World line admits the access (R374, R123, R460). -/
def refusal (s : State) (t : Target) (a : Access) (wr : Bool) (rule : WRule) : Option Resp :=
  let w := targetWorld s t
  let needSup : Option Resp := if a.sup then none else some .level
  let sup (ok : Bool) : Option Resp := if a.root then none else if ok then needSup else some .world
  let other := a.viaAlias && (match t with | .io e _ => a.eng ≠ some e | _ => true)
  match rule with
  | .all => none
  | .ownAny => if a.root || a.world = w then none else some .world
  | .ownAnyAlias => if a.root || a.viaAlias || a.world = w then none else some .world
  | .ownSup => sup (a.world = w)
  | .ownSupAlias => if other then none else sup (a.world = w)
  | .winTs => sup (w = .T && a.world = .T)
  | .hs => sup (a.world = .H)
  | .ts => sup (a.world = .T)
  | .tsHs => sup true
  | .hsHost => if a.host then none else sup (a.world = .H)
  | .tsHsRoot => sup (!a.host)
  | .supOf x => sup (a.world = x)
  | .doorbell => if a.viaAlias then none else sup (a.world = w)
  | .decStage =>
    if !wr then none
    else match holderClaim s t with
      | some { holder := .engine e, world := _ } => if a.eng = some e then none else some .world
      | _ => some .world
  | .decFd | .timer =>
    match holderClaim s t with
    | some c => sup (a.world = c.world)
    | none => if a.root then none else some .world

/-! ## The partition (R378 to R380) -/

/-- Whether a valid partition entry that covers [x, x + n) grants the access to a world (R378, R379). -/
def State.wptGrants (s : State) (w : World) (x n : Nat) (wr : Bool) : Bool :=
  (List.range 32).any fun e =>
    let v := s.n0 (0x7680 + 4 * e)
    let size := 2 ^ fld v 26 22
    let base := fld v 14 0 * 65536
    bitOf v 31 && decide (base ≤ x) && decide (x + n ≤ base + size) &&
      bitOf v (match w, wr with | .T, false => 27 | .T, true => 28 | .H, false => 29 | .H, true => 30)

/-- The engine whose data scratchpad holds local address x (Table 1-4). -/
def spadEngine (x : Nat) : Option EngineId :=
  if h : 0x10000000 ≤ x ∧ x < 0x10000000 + 100 * 0x40000 then some ⟨(x - 0x10000000) / 0x40000, by omega⟩ else none

/-- Whether local address x lies in the register aliases of Table 1-4, which R374 governs. -/
def inAlias (x : Nat) : Bool := within x 0x18000000 0x1863FFFF || within x 0x1C000000 0x1FFFFFFF
/-- The alias that holds [x, x + n) whole, by its first address. -/
def aliasOf (x n : Nat) : Option Nat :=
  [(0x18000000, 0x18640000), (0x1C000000, 0x20000000)].findSome? fun r =>
    if decide (r.1 ≤ x) && decide (x + n ≤ r.2) then some r.1 else none

/-- The partition admits an access of world w to [x, x + n) (R378, R380). -/
def State.admitted (s : State) (w : World) (x n : Nat) (wr : Bool) : Bool :=
  s.lark.opened || inAlias x ||
    (match spadEngine x, spadEngine (x + n - 1) with | some e, some f => e = f && s.world e = w | _, _ => false) ||
    s.wptGrants w x n wr

/-- The partition check of a master: a ROOT token passes where either world would (R460). -/
def State.partOk (s : State) (a : Access) (x n : Nat) (wr : Bool) : Bool :=
  s.admitted a.world x n wr || (a.root && s.admitted (otherWorld a.world) x n wr)

end Sys2Proof.Machine
end

