-- ==== Sys2Proof/Machine/Claims.lean ====
section
/-!
DEFINITION. Machine/Claims.lean: claimable resources (R407 to R410), capture units and their timestamps (R241, R300), and
decision outputs with their staged values (R455).
-/
namespace Sys2Proof.Machine

/-- State with the claim of register index r of die d set. -/
def State.setClaim (s : State) (d : DieId) (r : Nat) (c : Option Claim) : State :=
  s.modDie d fun x => { x with claims := smPut (fun _ => none) x.claims r c }

/-- CLM_r as read. -/
def claimWord (c : Option Claim) : Word :=
  match c with
  | none => 0
  | some { holder, world } =>
    at32 31 1 ||| at32 27 (worldBit world) |||
      (match holder with
       | .engine e => at32 28 1 ||| at32 16 e.val
       | .host => at32 28 2
       | .timeTree => at32 28 3
       | .linkLatency => at32 28 4
       | .decIn => at32 28 5)

/-! ## CMD claims and releases -/

/-- Resources that CMD claims: slot tables, DMA channels, timers of Newt 0 (Table 13-8). -/
def cmdResource (d : DieId) (r : Nat) : Bool :=
  (decide (r < 0x40) && portListed d r) ||
    (within r 0x60 0x67 && (chanOf d (r - 0x60)).isSome) || (within r 0x68 0x6F && d == newt0)

/-- Record the result of a claim write in the writer's CLM_LAST (R408). -/
def State.claimLast (s : State) (a : Access) (d : DieId) (r result : Nat) : State :=
  let v := at32 16 d.val ||| at32 8 r ||| at32 0 result
  match a.eng with
  | some e => s.ioPut e 0xB00 v
  | none => if a.host then { s with pcie := { s.pcie with clmLast := v } } else s

/-- The holder that a CMD claim records, where Table 13-8 admits the writer. -/
def cmdHolder (a : Access) : Option Holder :=
  match a.eng with
  | some e => some (.engine e)
  | none => if a.host && a.root then some .host else none

/-- A CMD claim that has passed R374 (R407, R408). -/
def State.claimCmd (s : State) (a : Access) (d : DieId) (r : Nat) : State :=
  match cmdResource d r, cmdHolder a with
  | true, some h =>
    match s.claimOf d r with
    | none => (s.setClaim d r (some { holder := h, world := a.world })).claimLast a d r 1
    | some _ => s.claimLast a d r 2
  | _, _ => s.claimLast a d r 3

/-- Whether a DMA channel that a claim register names is not idle (R409). -/
def State.claimBusy (s : State) (d : DieId) (r : Nat) : Bool :=
  within r 0x60 0x67 && (match chanOf d (r - 0x60) with | some c => s.dma[c].st ≠ .idle | none => false)

/-- A CMD release that has passed R374 (R409): by a writer that Table 13-8 admits, of the holder's world or the host with ROOT. -/
def State.releaseCmd (s : State) (a : Access) (d : DieId) (r : Nat) : State :=
  match cmdResource d r, s.claimOf d r with
  | true, some c =>
    if (if a.host then a.root else a.sup && a.world = c.world) && !(s.claimBusy d r) then
      (s.setClaim d r none).claimLast a d r 1
    else s.claimLast a d r 3
  | _, _ => s.claimLast a d r 3

/-- Whether a master may write the registers of a claimed resource: its holder's world at supervisor level (R410). -/
def State.holds (s : State) (a : Access) (d : DieId) (r : Nat) : Bool :=
  match s.claimOf d r with
  | some c => a.sup && (a.world = c.world || a.root)
  | none => false

/-! ## Decision outputs -/

/-- The Newt and claim register of DEC_OUTk. -/
def decNewt (k : Nat) : DieId := if k < 16 then 6 else 7
def decReg (k : Nat) : Nat := 0x40 + k % 16
/-- Set the claim of DEC_OUTk; a claim change resets the staged value to 0 (R455). -/
def State.setDec (s : State) (k : Nat) (c : Option Claim) : State :=
  (s.setClaim (decNewt k) (decReg k) c).dPut (decNewt k) (0x100 + k) 0
/-- The engine that holds DEC_OUTk. -/
def State.decHolder (s : State) (k : Nat) : Option EngineId :=
  match s.claimOf (decNewt k) (decReg k) with
  | some { holder := .engine e, world := _ } => some e
  | _ => none
/-- What DEC_OUTk drives: its staged value only while the engine holding its claim is in a running mode and its Newt is not
in MD11, else veto (R414, Table 14-2). -/
def State.decPin (s : State) (k : Nat) : Bool :=
  match s.decHolder k with
  | some e => (s.eng e).running && (s.die (decNewt k)).mode ≠ 11 && bitOf (s.dGet (decNewt k) (0x100 + k)) 0
  | none => false

/-! ## Capture units -/

/-- Claim register index of capture unit k. -/
def capReg (k : Nat) : Nat := 0x50 + k
/-- The lowest free capture unit of a Newt (R241). -/
def State.capFree (s : State) (n : Fin 2) : Option Nat :=
  (List.range 16).find? fun k => (s.claimOf (newtDie n) (capReg k)).isNone
/-- Take a unit for a feature (R241). -/
def State.capTake (s : State) (n : Fin 2) (k : Nat) (h : Holder) (w : World) : State :=
  s.setClaim (newtDie n) (capReg k) (some { holder := h, world := w })
/-- Release a unit; a timestamp it holds is discarded (R409). -/
def State.capFreeUnit (s : State) (n : Fin 2) (k : Nat) : State :=
  (s.setClaim (newtDie n) (capReg k) none).dMod (newtDie n) (0x5100 + 16 * k) (setBit · 31 false)
/-- A capture: TIM_NOW with bits [3:0] 0, or OVR where a timestamp is still held (R241). -/
def State.capStamp (s : State) (n : Fin 2) (k : Nat) : State :=
  let d := newtDie n
  if bitOf (s.dGet d (0x5100 + 16 * k)) 31 then s.dMod d (0x5100 + 16 * k) (setBit · 30 true)
  else
    let t := s.timNow.toNat / 16 * 16
    ((s.dMod d (0x5100 + 16 * k) (setBit · 31 true)).dPut d (0x5104 + 16 * k) (BitVec.ofNat 32 t)).dPut d
      (0x5108 + 16 * k) (BitVec.ofNat 32 (t / 2 ^ 32))
/-- CAP_CTLk as read: OWNER from the claim (1 time tree, 2 link latency, 3 DEC_IN). -/
def State.capCtl (s : State) (n : Fin 2) (k : Nat) : Word :=
  let v := s.dGet (newtDie n) (0x5100 + 16 * k)
  match s.claimOf (newtDie n) (capReg k) with
  | some { holder := .timeTree, world := _ } => setFld v 29 28 1
  | some { holder := .linkLatency, world := _ } => setFld v 29 28 2
  | some { holder := .decIn, world := _ } => setFld v 29 28 3
  | _ => v

/-- Units held by a feature. -/
def State.capUnits (s : State) (n : Fin 2) (h : Holder) : List Nat :=
  (List.range 16).filter fun k =>
    match s.claimOf (newtDie n) (capReg k) with
    | some c => c.holder = h
    | none => false

/-- The unit that timestamps local DEC_IN i: owner 3 with that INPUT. -/
def State.dinUnit (s : State) (n : Fin 2) (i : Nat) : Option Nat :=
  (s.capUnits n .decIn).find? fun k => fld (s.dGet (newtDie n) (0x5100 + 16 * k)) 19 16 = i

/-- Write bit i of DIN_TS.EN as 1: claims a unit for the input, or sets CLAIMED (R241). -/
def State.dinEnable (s : State) (a : Access) (n : Fin 2) (i : Fin 8) : State :=
  let d := newtDie n
  if bitOf (s.dGet d 0x5300) i then s
  else match s.capFree n with
    | some k =>
      ((s.capTake n k .decIn a.world).dMod d (0x5100 + 16 * k) (setFld · 19 16 i.val)).dMod d 0x5300
        (fun v => setBit (setBit v i true) (8 + i.val) false)
    | none => s.dMod d 0x5300 (setBit · (8 + i.val) true)
/-- Write bit i of DIN_TS.EN as 0: frees the unit (R409). -/
def State.dinDisable (s : State) (n : Fin 2) (i : Fin 8) : State :=
  let d := newtDie n
  if bitOf (s.dGet d 0x5300) i then
    let s := match s.dinUnit n i with | some k => s.capFreeUnit n k | none => s
    s.dMod d 0x5300 (setBit · i false)
  else s

/-- A write of LAT_MEAS (R241, R300): EN claims or frees a unit; LANE is ignored while EN = 1. -/
def State.latMeas (s : State) (a : Access) (n : Fin 2) (v : Word) : State :=
  let d := newtDie n
  let old := s.dGet d 0x3704
  if bitOf old 31 then
    if bitOf v 31 then s
    else (s.capFreeUnit n (fld old 27 24)).dPut d 0x3704 (BitVec.ofNat 32 (fld old 6 0))
  else if bitOf v 31 then
    match s.capFree n with
    | some k => (s.capTake n k .linkLatency a.world).dPut d 0x3704 (at32 31 1 ||| at32 24 k ||| at32 0 (fld v 6 0))
    | none => s.dPut d 0x3704 (at32 30 1 ||| at32 0 (fld v 6 0))
  else s.dPut d 0x3704 (at32 0 (fld v 6 0) ||| (old &&& 0x40000000#32))

/-! ## Ends of claims (R409) -/

/-- Remove the claims of a die that satisfy p; a DEC_OUT claim that ends resets the staged value. -/
def State.dropClaims (s : State) (d : DieId) (p : Claim → Bool) : State :=
  let keep := (s.die d).claims
  forAll keep s fun (r, c) t =>
    match c with
    | some c =>
      if p c then
        (if within r 0x40 0x4F then t.setDec (16 * (d.val - 6) + (r - 0x40)) none else t.setClaim d r none)
      else t
    | none => t
/-- Every claim that names an engine as holder ends (R377, R409). -/
def State.dropEngine (s : State) (e : EngineId) : State :=
  forAll (List.finRange 8) s fun d t => t.dropClaims d fun c => c.holder = .engine e
/-- PERST_N releases every claim of the host (R409). -/
def State.dropHost (s : State) : State :=
  forAll (List.finRange 8) s fun d t => t.dropClaims d fun c => c.holder = .host

end Sys2Proof.Machine
end

