-- ==== Sys2Proof/Machine/Crc.lean ====
section
/-!
DEFINITION. Machine/Crc.lean: CRC-32C with the parameters of R205: reflected polynomial 0x1EDC_6F41, initial value
and final exclusive-OR 0xFFFF_FFFF.
-/
namespace Sys2Proof.Machine

/-- One bit step of the reflected CRC-32C register (0x82F6_3B78 is 0x1EDC_6F41 reflected). -/
def crcBit (c : Word) : Word :=
  if bitOf c 0 then (c >>> 1) ^^^ 0x82F63B78#32 else c >>> 1

/-- One byte into the CRC register. -/
def crcByte (c : Word) (b : Byte) : Word :=
  let x := c ^^^ b.setWidth 32
  crcBit (crcBit (crcBit (crcBit (crcBit (crcBit (crcBit (crcBit x)))))))

/-- CRC-32C of a string of bytes (R205). -/
def crc32c (l : List Byte) : Word := ~~~(l.foldl crcByte 0xFFFFFFFF#32)

end Sys2Proof.Machine
end

