-- ==== Sys2Proof/Machine/Time.lean ====
section
/-!
DEFINITION. Machine/Time.lean: the time base: engine cycles and fabric cycles of a reference period (R222, R223), TIM_NOW as
seen by an engine (R225), the comparison of times (R226), frames (R244) and one tick of time.
-/
namespace Sys2Proof.Machine

/-- Whole periods and fraction of a time (R224). -/
def periodOf (t : Dword) : Nat := t.toNat / 65536
def fracOf (t : Dword) : Nat := t.toNat % 65536
/-- A time from its period count and fraction. -/
def mkTime (p f : Nat) : Dword := BitVec.ofNat 64 (p * 65536 + f)

/-- Running from EXPREF: Heliotrope is in LOCKED or ALIGNED (Table 8-1). -/
def State.onExpref (s : State) : Bool := s.helio.st = .locked || s.helio.st = .aligned
/-- The engine multiplier and the fabric multiplier (R222). A multiplier of 0 has no meaning in R222: it runs as 1 (DESIGN CHOICE,
log 89). -/
def State.kE (s : State) : Nat := if s.onExpref then max 1 s.helio.kE else 16
def State.kF (s : State) : Nat := if s.onExpref then max 1 s.helio.kF else 12
/-- The engine multiplier of engine e: 20 in MD9, or K_e where that is less (R222). -/
def State.engK (s : State) (e : EngineId) : Nat :=
  if (s.eng e).mode = 9 then min 20 s.kE else s.kE

/-- The clock edge of multiplier k that is the last at or before fraction f of a period (R223, R225). -/
def edgeAt (k f : Nat) : Nat := ((f + 1) * k - 1) / 65536
/-- Fraction at which edge j of multiplier k is seen (R225). -/
def edgeFrac (k j : Nat) : Nat := j * 65536 / k
/-- First edge of multiplier k at or past fraction f; k itself is the next period's first edge. -/
def edgeFrom (k f : Nat) : Nat := (f * k + 65535) / 65536

/-- TIM_NOW at the last edge of engine e's clock (R225). -/
def State.engEdge (s : State) (e : EngineId) : Dword :=
  let k := s.engK e
  mkTime (periodOf s.timNow) (edgeFrac k (edgeAt k (fracOf s.timNow)))
/-- TIM_NOW as engine e sees it in its present ec (R225): so many edges later as the engine is ahead (log 76). -/
def State.engTim (s : State) (e : EngineId) : Dword :=
  let k := s.engK e
  let j := edgeAt k (fracOf s.timNow) + (s.eng e).ahead
  mkTime (periodOf s.timNow + j / k) (edgeFrac k (j % k))

/-- Time t minus TIM_NOW, as a signed number (R226). -/
def timeAhead (t now : Dword) : Int := (t - now).toInt
/-- Time t is at or before now (R226). -/
def timeReached (t now : Dword) : Bool := timeAhead t now ≤ 0

/-- Engine cycles from the first ec at or past t to the present ec of engine e: negative before it, 0 in it, positive past
it (R236, R237). -/
def State.ecPast (s : State) (e : EngineId) (t : Dword) : Int :=
  let k := s.engK e
  let dp : Int := (periodOf s.timNow : Int) - ((s.timNow.toNat : Int) + timeAhead t s.timNow) / 65536
  dp * (k : Int) + (edgeAt k (fracOf s.timNow) : Int) + ((s.eng e).ahead : Int) - (edgeFrom k (fracOf t) : Int)

/-- Index of the present fc in its slot frame of 4 periods (R244). -/
def State.frameFc (s : State) : Nat := periodOf s.timNow % 4 * s.kF + edgeAt s.kF (fracOf s.timNow)
/-- A frame boundary: TIM_NOW[17:0] = 0 (R244). -/
def onFrame (t : Dword) : Bool := t.toNat % 262144 == 0

/-- The multipliers that HEL_CFG holds come into force at a time-base edge (R222). -/
def Helio.atEdge (h : Helio) (cfg : Word) : Helio := { h with kE := fld cfg 23 16, kF := fld cfg 15 8 }

/-- One fraction unit of time: TIM_NOW advances by 1 (R224), and the count of fabric cycles by 1 where an fc edge lies at the
new time. -/
def tick (s : State) : State :=
  let t := s.timNow + 1#64
  if fracOf t = 0 then
    { s with timNow := t, fc := s.fc + 1, helio := s.helio.atEdge (s.n0 0x5000) }
  else if edgeAt s.kF (fracOf t) = edgeAt s.kF (fracOf s.timNow) then { s with timNow := t }
  else { s with timNow := t, fc := s.fc + 1 }

/-- What every DEC_OUT drives (R414). -/
def State.outLevels (s : State) : BitVec 32 :=
  BitVec.ofNat 32 (sumNat ((List.range 32).map fun k => if s.decPin k then 2 ^ k else 0))
/-- Time is about to move on, across a time-base edge or not: which outputs have changed in this reference period, and at its end
which have not (R240). -/
def State.watchOut (s : State) (edge : Bool) : State :=
  let now := s.outLevels
  let moved := s.pins.outMoved ||| (now ^^^ s.pins.outLevel)
  let pins : Pins :=
    if edge then { s.pins with outLevel := now, outMoved := 0, outQuiet := (~~~moved), fineNew := 0 }
    else { s.pins with outLevel := now, outMoved := moved }
  { s with pins := pins }

/-- A Foxglove whose clock stands still for n fabric cycles: what it has begun goes on that much later (R416). -/
def Fox.wait (x : Fox) (n : Nat) : Fox :=
  { x with
    queue := x.queue.map fun q => (q.1, q.2.1, q.2.2 + n)
    ctxs := x.ctxs.map fun c => { c with ready := c.ready + n }
    checkAt := x.checkAt.map (· + n) }
/-- A Gecko in MD0 gates its Foxglove's clock (Table 14-2). -/
def State.foxGated (s : State) (g : GeckoId) : Bool := (s.die (geckoDie g)).mode = 0
/-- The fabric cycles that have passed since state old do not pass for a gated Foxglove. -/
def State.foxStand (s old : State) : State :=
  if (List.finRange 6).any s.foxGated && s.fc ≠ old.fc then
    { s with fox := .ofFn fun g => if s.foxGated g then s.fox[g].wait (s.fc - old.fc) else s.fox[g] }
  else s

/-- Edges of a clock of multiplier k up to time t. -/
def edgesTo (k : Nat) (t : Dword) : Nat := periodOf t * k + edgeAt k (fracOf t)
/-- So many edges of each engine's clock have passed: an engine that is ahead is so by that many fewer (log 76); the
ec in which port B wrote is over where more have passed. -/
def State.caughtUp (s : State) (edges : EngineId → Nat) : State :=
  if s.engines.all fun g => g.ahead == 0 && g.portB.isEmpty then s
  else s.mapEng fun e g =>
    { g with ahead := g.ahead - edges e, portB := if g.ahead < edges e then [] else g.portB }
/-- Time passes with nothing commanded: one tick (log 2); none in reset, where TIM_NOW stays 0 (R440). -/
def State.idle (s : State) : State :=
  if s.inReset then s
  else ((tick (s.watchOut (fracOf (s.timNow + 1#64) == 0))).foxStand s).caughtUp fun e => edgesTo (s.engK e) (tick s).timNow - edgesTo (s.engK e) s.timNow

/-- The next time-base edge, at which TIM_NOW takes t. -/
def State.stepTime (s : State) (t : Dword) : State :=
  (({ s.watchOut true with
      timNow := t, fc := s.fc + (s.kF - edgeAt s.kF (fracOf s.timNow)),
      helio := s.helio.atEdge (s.n0 0x5000) } : State).foxStand s).caughtUp
    fun e => s.engK e - edgeAt (s.engK e) (fracOf s.timNow)
/-- The phase of the time base moves by d fraction units: TIM_NOW, and the fabric cycles whose edges it passes or takes back
(R233); a time-base edge that it passes brings the multipliers into force (R222). -/
def State.shiftTime (s : State) (d : Int) : State :=
  let t := s.timNow + BitVec.ofInt 64 d
  let moved : Int := (edgesTo s.kF t : Int) - (edgesTo s.kF s.timNow : Int)
  let s' := { s.watchOut (!(periodOf t == periodOf s.timNow)) with timNow := t, fc := if -64 ≤ moved ∧ moved ≤ 64 then ((s.fc : Int) + moved).toNat else s.fc }
  if periodOf t = periodOf s.timNow then s' else { s' with helio := s'.helio.atEdge (s.n0 0x5000) }

/-- Reference periods since the period count p, across the wrap of TIM_NOW (R226). -/
def State.periodsSince (s : State) (p : Nat) : Nat := (periodOf s.timNow + 2 ^ 48 - p % 2 ^ 48) % 2 ^ 48

end Sys2Proof.Machine
end

