-- ==== Sys2Proof/Machine/Lanes.lean ====
section
/-!
DEFINITION. Machine/Lanes.lean: front-end quads and lanes (R272 to R290), block capture, release points, retirement (R297 to
R299), and the groups that released blocks leave in the routing unit (R291 to R294).
-/
namespace Sys2Proof.Machine

/-! ## Configuration -/

/-- Port of the QUAD_CFG register of a quad, on its Newt. -/
def quadPort (q : QuadId) : Nat := 0x3000 + 4 * (q.val % 18)
def quadDie (q : QuadId) : DieId := newtDie (quadNewt q)
def laneDie (l : LaneId) : DieId := newtDie (laneNewt l)
def State.quadCfg (s : State) (q : QuadId) : Word := s.dGet (quadDie q) (quadPort q)
def State.laneCfg (s : State) (l : LaneId) : Word := s.quadCfg (laneQuad l)
/-- EN, TXEN, replay discipline and FIXED of QUAD_CFG. -/
def qEN (c : Word) : Bool := bitOf c 31
def qTX (c : Word) : Bool := bitOf c 30
def qReplay (c : Word) : Bool := bitOf c 29
def qFixed (c : Word) : Bool := bitOf c 28

/-- The reference in Hz: EXPREF as measured, or LOCREF of 100 MHz (R221, R222). -/
def State.refHz (s : State) : Nat := if s.onExpref then s.helio.expref.getD s.helio.lockHz else 100000000
/-- Lane rate of a quad in bit/s (R272). -/
def State.quadRate (s : State) (c : Word) : Nat :=
  if qFixed c then fld c 23 12 * s.refHz else fld c 23 12 * 10000000

/-- Whether USL version code v (1, 2, 3) is allowed by a discipline and rate (Table 10-3). -/
def versionFits (v : Nat) (replay : Bool) (rate : Nat) : Bool :=
  (!replay || decide (2 ≤ v)) && decide (rate ≤ (if v = 3 then 32000000000 else 16000000000))
/-- The highest version that the front-end's VERS, the discipline and the rate allow; 0 for none (R280). -/
def State.chooseVersion (s : State) (c : Word) (vers : Nat) : Nat :=
  (([3, 2, 1] : List Nat).find? fun v => vers.testBit (v - 1) && versionFits v (qReplay c) (s.quadRate c)).getD 0

/-- Whether a lane's bit of CHAN_MASK is set. -/
def State.masked (s : State) (l : LaneId) : Bool := bitOf s.chanMask l.val

/-- Whether the lane's quad is the one under maintenance (R426). -/
def State.maintained (s : State) (l : LaneId) : Bool :=
  (s.die (laneDie l)).mode = 10 && fld (s.dGet (laneDie l) 0x7D04) 4 0 == (laneQuad l).val % 18

/-! ## The transmitter (R277, R279) -/

/-- CRC-32C of a block: the payload bytes and trailer bytes 4 to 7 (R276). -/
def blockCrc (b : FeBlock) : Word :=
  crc32c (b.words.flatMap (fun w => leBytes 4 w.toNat) ++ leBytes 4 (fld b.trailer 63 32))

/-- An acknowledgement code word of block type 0x4B: the sequence number in bits [11:0], ACK (0) or NAK (1) in [15:12] (R277). -/
def ackWord (code : Nat) (q : BitVec 12) : LaneTx := .code 0x4B (BitVec.ofNat 56 (code * 4096 + q.toNat))
def ackCode : Nat := 0
def nakCode : Nat := 1
/-- The item is a NAK. -/
def LaneTx.isNak : LaneTx → Bool
  | .code _ w => w.toNat / 4096 == nakCode
  | .hello _ => false
def LaneTx.isHello : LaneTx → Bool
  | .hello _ => true
  | .code _ _ => false

/-- The fabric cycles that a block of 34 code words, 2,244 UI, takes on a lane (R274). -/
def State.blockFc (s : State) (l : LaneId) : Nat := (2244 * (s.kF * s.refHz) + s.quadRate (s.laneCfg l) - 1) / max 1 (s.quadRate (s.laneCfg l))

/-- The first fabric cycle from t on in which no HELLO block of n cycles is being sent (R277). -/
def txFree (n : Nat) (l : List FeSend) (t : Nat) : Nat :=
  l.foldl (fun t m => if m.what.isHello && decide (m.start ≤ t) && decide (t < m.start + n) then m.start + n else t) t
/-- An item takes its place by its start; a NAK goes before what starts with it (R277). -/
def txPut (x : FeSend) : List FeSend → List FeSend
  | [] => [x]
  | m :: l => if x.start < m.start || (x.start == m.start && x.what.isNak && !m.what.isNak) then x :: m :: l else m :: txPut x l
/-- A code word that may start in fabric cycle t starts there, or right after the HELLO block then being sent (R277). -/
def State.laneSend (s : State) (l : LaneId) (t : Nat) (w : LaneTx) : State :=
  if qReplay (s.laneCfg l) && qTX (s.laneCfg l) then
    s.modLane l fun x => { x with tx := txPut { start := txFree (s.blockFc l) x.tx t, what := w } x.tx }
  else s
/-- A HELLO block starts; the code words that would start within it follow it. -/
def State.laneHello (s : State) (l : LaneId) (b : FeBlock) : State :=
  let n := s.blockFc l
  s.modLane l fun x =>
    let t := txFree n x.tx s.fc
    let sent := x.tx.filter fun m => decide (m.start < t)
    let rest := x.tx.filter fun m => !(decide (m.start < t))
    { x with tx := rest.foldl (fun l m => txPut { m with start := max m.start (t + n) } l) (sent ++ [{ start := t, what := .hello b }]) }
/-- The transmitter goes off: what has not started is not sent. -/
def Lane.txOff (x : Lane) (now : Nat) : Lane := { x with tx := x.tx.filter fun m => decide (m.start < now) }

/-! ## Training states (Table 10-4) -/

/-- Entry into DISABLED. -/
def Lane.disable (x : Lane) : Lane :=
  { x with st := .disabled, ver := 0, seqlock := false, helloSeen := false, helloRun := 0, held := [], resends := [],
           timers := [], badSeen := [], wasUp := false, wasLocked := false, idleWait := false }
/-- Entry into RETRAIN: SEQLOCK returns to 0 (R284). -/
def Lane.retrain (x : Lane) : Lane :=
  { x with st := .retrain, seqlock := false, helloSeen := false, helloRun := 0, idleWait := false }
/-- Entry into CDR. -/
def Lane.train (x : Lane) : Lane := { x with st := .cdr, helloSeen := false, helloRun := 0 }
/-- Entry into HELLO. -/
def Lane.toHello (x : Lane) : Lane := { x with st := .hello, helloSeen := false, helloRun := 0 }

/-- DIE_MAINT.DONE once every lane of the quad under maintenance is ACTIVE (R426). -/
def State.maintDone (s : State) (d : DieId) : State :=
  let q := fld (s.dGet d 0x7D04) 4 0
  let lanes := (List.finRange 144).filter fun l => laneDie l = d && (laneQuad l).val % 18 == q && !(s.masked l)
  if (s.die d).mode = 10 && lanes.all (fun l => s.lanes[l].st = .active) then s.dMod d 0x7D04 (setBit · 31 true) else s

/-- Entry into ACTIVE under a version. -/
def State.laneUp (s : State) (l : LaneId) (ver : Nat) : State :=
  (s.modLane l fun x => { x with st := .active, ver := ver, seqlock := false, wasUp := true }).maintDone (laneDie l)

/-- A write of QUAD_CFG (R272): MULT, DISC and FIXED stay while EN = 1; EN stays 0 for a rate outside 1.0 to 32.0 Gb/s. -/
def State.quadWrite (s : State) (q : QuadId) (v : Word) : State :=
  let old := s.quadCfg q
  let keep : Word := 0x30FFF000#32
  let clash := qEN old && (v &&& keep ≠ old &&& keep)
  let v1 := if qEN old then (v &&& ~~~keep) ||| (old &&& keep) else v
  let rate := s.quadRate v1
  let bad := qEN v1 && !(qEN old) && !(decide (1000000000 ≤ rate) && decide (rate ≤ 32000000000))
  let err := clash || bad || (bitOf old 27 && !(bitOf v 27))
  let nv := setBit (v1 &&& 0xF0FFFFFF#32) 27 err
  let nv := if bad then setBit nv 31 false else nv
  let s := s.dPut (quadDie q) (quadPort q) nv
  forAll (quadLanes q) s fun l t =>
    if qEN nv && !(qEN old) then
      (if t.masked l then t else t.modLane l fun x => (x.disable).train)
    else if !(qEN nv) && qEN old then
      t.modLane l fun x => if x.st = .retired then x else x.disable.txOff s.fc
    else t

/-! ## Retirement (R297 to R299) -/

/-- A lane is retired: RETIRED, CHAN_MASK, the lane event on every Trigger-world engine; the failure counts restart (R298).
The dead masks follow CHAN_MASK (R262). -/
def State.retireLane (s : State) (l : LaneId) : State :=
  let s := s.modLane l fun x => { x.txOff s.fc with st := .retired, fails := [], winBlocks := 0, winReqs := 0 }
  ({ s with chanMask := setBit s.chanMask l.val true, mapStale := true }).lineT 1

/-- A CHAN_MASK bit is cleared: DISABLED, and on to CDR where the quad is enabled; the counts restart (R299, Table 10-4). -/
def State.unretireLane (s : State) (l : LaneId) : State :=
  if s.masked l then
    let s := { s with chanMask := setBit s.chanMask l.val false, mapStale := true }
    let en := qEN (s.laneCfg l)
    s.modLane l fun x =>
      let y := { x.disable with fails := [], winBlocks := 0, winReqs := 0 }
      if en then y.train else y
  else s

/-- Add to a field of LANE_CNT (NAKS 31:24, MISSING 23:16, LATE 15:8, SEQERR 7:0), saturating. -/
def State.laneCount (s : State) (l : LaneId) (hi : Nat) : State :=
  s.modLane l fun x => { x with cnt := bumpFld x.cnt hi (hi - 7) 1 }

/-- A captured block counts in the window of R297; the window restarts when it is full. -/
def State.laneWindow (s : State) (l : LaneId) : State :=
  let full := 2 ^ (16 + fld (s.dGet (laneDie l) 0x3700) 7 4)
  s.modLane l fun x =>
    if full ≤ x.winBlocks then { x with winBlocks := 1, winReqs := 0 } else { x with winBlocks := x.winBlocks + 1 }

/-- A request or bad block counts towards retirement (R297). -/
def State.laneStrike (s : State) (l : LaneId) : State :=
  let lim := fld (s.dGet (laneDie l) 0x3700) 15 8
  let s := s.modLane l fun x => { x with winReqs := x.winReqs + 1 }
  if lim ≠ 0 && decide (lim ≤ s.lanes[l].winReqs) then s.retireLane l else s

/-- A failed retrain (R282, R297): the lane waits, and retires once RT_MAX of them fall within RT_WIN × 10 ms. -/
def State.laneFail (s : State) (l : LaneId) : State :=
  let cfg := s.dGet (laneDie l) 0x3700
  let win := fld cfg 27 16 * (s.refHz * s.kF / 100)
  let fails := if s.maintained l then s.lanes[l].fails
    else s.fc :: s.lanes[l].fails.filter (fun t => decide (s.fc < t + win))
  let s := s.modLane l fun x => { x.retrain with idleWait := true, fails := fails }
  if !(s.maintained l) && decide (fld cfg 31 28 ≤ fails.length) then s.retireLane l else s

/-! ## Release (R283 to R290) and routing (R291 to R293) -/

/-- Signed difference of sequence numbers modulo 4,096 (R285). -/
def seqDiff (a b : BitVec 12) : Int := (a - b).toInt

/-- Missing-marker word (R289). -/
def markerWord (reason lane : Nat) (seq : BitVec 12) : Word :=
  at32 24 0xFF ||| at32 22 reason ||| at32 12 lane ||| at32 0 seq.toNat

/-- The eight 32-byte groups of a block of 64 words. -/
def blockGroups (ws : List Word) : List W256 :=
  (List.range 8).map fun i =>
    BitVec.ofNat 256 (sumNat ((List.range 8).map fun j => (ws.getD (8 * i + j) 0).toNat * 2 ^ (32 * j)))

/-- Word w of route entry k of a lane (R291). -/
def State.routeWord (s : State) (l : LaneId) (k w : Nat) : Word :=
  s.dGet (laneDie l) (0x6000 + 0x10 * (4 * laneLocal l + k) + 4 * w)

/-- The groups that a released block leaves for one destination, in order (R292, R293): a missing marker goes to a Foxglove as
zeros; SKIPNULL drops zero groups of kinds 1 and 2; ENDMK adds an end marker. A quad that is not fixed-latency carries no
slot-scheduled traffic (R243). -/
def State.routeGroups (s : State) (l : LaneId) (k : Nat) (ws : List Word) (marker : Bool) (seq : BitVec 12) : List Group :=
  let w0 := s.routeWord l k 0
  let w1 := s.routeWord l k 1
  let w2 := s.routeWord l k 2
  let kind := fld w0 1 0
  let mk (target queue : Nat) (d : W256) : Group :=
    { lane := l, kind := kind, target := target, queue := queue, sched := bitOf w0 6 && qFixed (s.laneCfg l), data := d }
  let skip (g : List W256) : List W256 := if bitOf w0 4 then g.filter (· ≠ 0) else g
  match kind with
  | 1 => (skip (blockGroups ws)).map (mk (fld w1 6 0) (fld w1 11 8))
  | 2 =>
    let body := skip (if marker then List.replicate 8 0 else blockGroups ws)
    let tail := if bitOf w0 5 then [BitVec.ofNat 256 (0x80000000 + seq.toNat)] else []
    (body ++ tail).map (mk (fld w1 2 0) 0)
  | 3 =>
    let base := w1.toNat + (seq.toNat % 2 ^ fld w2 3 0) * 256
    (List.range 8).zipWith (fun i d => mk (base + 32 * i) 0 d) (blockGroups ws)
  | _ => []

/-- A released block enters the routing unit of its Newt; in MD11 the unit discards it (Table 14-2). -/
def State.routeBlock (s : State) (l : LaneId) (ws : List Word) (marker : Bool) (seq : BitVec 12) : State :=
  if (s.die (laneDie l)).mode = 11 then s
  else
    let gs := (List.range 4).flatMap fun k => s.routeGroups l k ws marker seq
    { s with groups := s.groups.set (laneNewt l) (s.groups[laneNewt l] ++ gs) }

/-- Release of NE: a good copy that is held and not FEBAD, or a missing marker with its reason (R287, R289, R290); a replay
lane sends ACK, data or marker alike, while its transmitter is on (R286, Table 10-4). -/
def State.laneRelease (s : State) (l : LaneId) : State :=
  let x := s.lanes[l]
  let copy := x.held.find? (fun h => h.seq = x.ne)
  let clean := x.st = .active && (match copy with | some h => !h.febad | none => false)
  let reason :=
    if x.st = .retired then 1 else match copy with
    | some h => if h.febad then 3 else 0
    | none => if x.badSeen.contains x.ne then 0 else 2
  let ws := match copy, clean with
    | some h, true => h.words
    | _, _ => markerWord reason l.val x.ne :: List.replicate 63 0
  let s := s.modLane l fun y => { y with
    ne := y.ne + 1, held := y.held.filter (fun h => h.seq ≠ x.ne),
    resends := y.resends.filter (fun p => p.1 ≠ x.ne), timers := y.timers.filter (fun p => p.1 ≠ x.ne),
    badSeen := y.badSeen.filter (· ≠ x.ne) }
  let s := if x.st = .retired then s else s.laneSend l s.fc (ackWord ackCode x.ne)
  let s := if clean then s else s.laneCount l 23
  s.routeBlock l ws (!clean) x.ne

/-- With a block held and SEQLOCK = 0, NE takes the lowest held sequence number and SEQLOCK becomes 1 (R284). -/
def Lane.lock (x : Lane) : Lane :=
  match x.held with
  | [] => x
  | h :: hs =>
    let low := hs.foldl (fun m y => if seqDiff y.seq m < 0 then y.seq else m) h.seq
    { x with ne := low, seqlock := true, wasLocked := true }

/-- Release points are off: CADL = 7, or a quad that is not fixed-latency (R283, R288). -/
def State.noDeadline (s : State) (l : LaneId) : Bool :=
  fld s.lanes[l].schedOn 30 28 == 7 || !(qFixed (s.laneCfg l))

/-- Whether a release point of a schedule lies in the present fc: REL fc after an edge with TIM_NOW[15+CADL:16] = PHASE
(R283). -/
def State.relDue (s : State) (sched : Word) : Bool :=
  let idx := periodOf s.timNow * s.kF + edgeAt s.kF (fracOf s.timNow)
  let rel := fld sched 11 0
  let cad := 2 ^ fld sched 30 28
  fld sched 30 28 ≠ 7 && decide (rel ≤ idx) && decide ((idx - rel) % s.kF = 0) &&
    decide ((idx - rel) / s.kF % cad = fld sched 21 16 % cad)

/-- A release point of a lane (R284, R287, R290); a lane under maintenance releases markers until it has SEQLOCK again (R426). A LANE_SCHED write comes into force at the first release edge after it. -/
def State.releasePoint (s : State) (l : LaneId) : State :=
  let x := s.lanes[l]
  let fresh := x.sched ≠ x.schedOn && s.relDue x.sched && decide (x.schedAt + fld x.sched 11 0 ≤ s.fc)
  if !(qFixed (s.laneCfg l)) || x.relAt = some s.fc || !(fresh || s.relDue x.schedOn) then s
  else
    let s := s.modLane l fun y => { y with relAt := some s.fc, schedOn := if fresh then y.sched else y.schedOn }
    match x.st with
    | .active =>
      let s := s.modLane l fun y => if y.seqlock then y else y.lock
      if s.lanes[l].seqlock || (s.maintained l && x.wasLocked) then s.laneRelease l else s
    | .disabled => s
    | .retired => s.laneRelease l
    | _ => if x.wasLocked then s.laneRelease l else s

/-- With release points off, NE is released as long as a good copy of it is held, or the buffer is full without it
(R288). -/
def laneDrain : Nat → State → LaneId → State
  | 0, s, _ => s
  | n + 1, s, l =>
    let x := s.lanes[l]
    if s.noDeadline l && x.st = .active then
      let s := s.modLane l fun y => if y.seqlock then y else y.lock
      let y := s.lanes[l]
      if y.seqlock && (y.held.any (fun h => h.seq = y.ne) || decide (8 ≤ y.held.length)) then
        laneDrain n (s.laneRelease l) l
      else s
    else s

/-! ## Capture (R285) -/

/-- The lowest sequence number from NE on that is not held (R285). -/
def Lane.lowestMissing (x : Lane) : BitVec 12 :=
  (((List.range 9).map fun i => x.ne + BitVec.ofNat 12 i).find? fun q => !(x.held.any fun h => h.seq = q)).getD x.ne

/-- request(s): a NAK with its count, at most four times, which starts 8 fc later (R277); the fifth releases a missing marker
where no deadline exists (R285, R288). -/
def State.laneRequest (s : State) (l : LaneId) (q : BitVec 12) : State :=
  let x := s.lanes[l]
  let n := ((x.resends.find? fun p => p.1 = q).map (·.2)).getD 0
  if n < 4 then
    let wait := max 1 (fld (s.laneCfg l) 7 0) * 16
    let s := s.modLane l fun y => { y with
      resends := (y.resends.filter fun p => p.1 ≠ q) ++ [(q, n + 1)],
      timers := (y.timers.filter fun p => p.1 ≠ q) ++ [(q, s.fc + wait)] }
    ((s.laneSend l (s.fc + 8) (ackWord nakCode q)).laneCount l 31).laneStrike l
  else if s.noDeadline l && x.seqlock && q = x.ne then laneDrain 9 (s.laneRelease l) l
  else s

/-- Fields of a trailer (Table 10-2). -/
def trCrc (t : Dword) : Nat := fld t 31 0
def trSeq (t : Dword) : BitVec 12 := BitVec.ofNat 12 (fld t 43 32)
def trKind (t : Dword) : Nat := fld t 47 44

/-- A bad block: CRC mismatch, reserved KIND or reserved trailer bits (R276). -/
def badBlock (b : FeBlock) : Bool :=
  (blockCrc b).toNat ≠ trCrc b.trailer || decide (1 < trKind b.trailer) || fld b.trailer 63 50 ≠ 0

/-- A bad block is counted; a replay lane requests the lowest number not held (R285); with no deadline a forward lane gives
NE up (R288). -/
def State.captureBad (s : State) (l : LaneId) : State :=
  let x := s.lanes[l]
  let q := x.lowestMissing
  let s := s.laneWindow l
  let s := if x.seqlock then s.modLane l fun y => { y with badSeen := q :: y.badSeen.filter (· ≠ q) } else s
  if qReplay (s.laneCfg l) then s.laneRequest l q
  else
    let s := (s.laneCount l 31).laneStrike l
    if s.noDeadline l && x.seqlock && s.lanes[l].st = .active && !(x.held.any fun h => h.seq = x.ne) then
      laneDrain 9 (s.laneRelease l) l
    else s

/-- A good HELLO block (Table 10-4, R279, R280). -/
def State.captureHello (s : State) (l : LaneId) (b : FeBlock) : State :=
  let w := b.words.getD 1 0
  let code := fld w 2 0 + 8 * fld w 9 8
  let x := s.lanes[l]
  let cfg := s.laneCfg l
  let ver := s.chooseVersion cfg (fld w 2 0)
  let same := x.helloSeen && x.fevers == code
  match x.st with
  | .hello =>
    let run := if same then x.helloRun + 1 else 1
    let s := s.modLane l fun y => { y with fevers := code, helloSeen := true, helloRun := run,
                                           negErr := y.negErr || ver == 0 }
    if ver = 0 then s
    else if qReplay cfg then (if bitOf w 16 && fld w 31 24 == ver then s.laneUp l ver else s)
    else if 2 ≤ run then s.laneUp l ver else s
  | .active =>
    let changed := x.fevers % 8 ≠ fld w 2 0
    s.modLane l fun y => if changed then { y.retrain with fevers := code } else { y with fevers := code }
  | _ => s

/-- A good DATA block (R285): held, or late, or a sequence error; a replay lane requests the numbers before it. While
SEQLOCK = 0 there is no NE to compare with, and up to 8 blocks are held. -/
def State.captureData (s : State) (l : LaneId) (b : FeBlock) : State :=
  let x := s.lanes[l]
  let q := trSeq b.trailer
  let s := s.laneWindow l
  let hold (s : State) : State := s.modLane l fun y =>
    { y with held := y.held ++ [{ seq := q, words := b.words, febad := bitOf b.trailer 49 && y.ver == 3 }] }
  let dup := x.held.any fun h => h.seq = q
  if x.seqlock then
    if seqDiff q x.ne < 0 || dup then s.laneCount l 15
    else if 7 < seqDiff q x.ne then
      (s.laneCount l 7).modLane l fun y => { y with held := [], seqlock := false }
    else
      let s := hold s
      let s := if qReplay (s.laneCfg l) then
          forAll ((List.range (q - x.ne).toNat).map fun i => x.ne + BitVec.ofNat 12 i) s fun p t =>
            if t.lanes[l].held.any (fun h => h.seq = p) || seqDiff p t.lanes[l].ne < 0 || t.lanes[l].st ≠ .active then t
            else t.laneRequest l p
        else s
      laneDrain 9 s l
  else if dup || decide (8 ≤ x.held.length) then s.laneCount l 15
  else laneDrain 9 (hold s) l

/-- Capture of a block (R285), by a lane in HELLO or ACTIVE; the trailer of a DATA block on the measured lane is timestamped
(R300). -/
def State.capture (s : State) (l : LaneId) (b : FeBlock) : State :=
  let x := s.lanes[l]
  if x.st ≠ .active && x.st ≠ .hello then s
  else
    let m := s.dGet (laneDie l) 0x3704
    let s := if trKind b.trailer = 0 && bitOf m 31 && fld m 6 0 == laneLocal l then
        s.capStamp (laneNewt l) (fld m 27 24) else s
    if badBlock b then s.captureBad l
    else if trKind b.trailer = 1 then s.captureHello l b
    else if x.st = .active then s.captureData l b
    else s

/-! ## Registers of lanes -/

def laneStCode : LaneSt → Nat
  | .disabled => 0 | .cdr => 1 | .block => 2 | .align => 3 | .hello => 4 | .active => 5 | .retrain => 6 | .retired => 7

/-- LANE_STAT as read. -/
def laneStatWord (x : Lane) : Word :=
  at32 28 (laneStCode x.st) ||| at32 26 x.ver ||| at32 25 (b2n x.seqlock) ||| at32 24 (b2n x.negErr) |||
    at32 16 x.fevers ||| at32 0 x.ne.toNat

/-- A write of LANE_SCHED clears SEQLOCK; CADL = 7 is in force at once, any other value from the next release edge on. -/
def State.schedWrite (s : State) (l : LaneId) (v : Word) : State :=
  let v := v &&& 0x703F0FFF#32
  s.modLane l fun x =>
    { x with sched := v, schedOn := if fld v 30 28 = 7 then v else x.schedOn, schedAt := s.fc, seqlock := false }

/-- Whether a Pool latency buffer target lies in Pool, aligned to 256 bytes (R294). -/
def poolTarget (w1 : Word) : Bool := decide (w1.toNat < 6 * 0x2000000) && decide (w1.toNat % 256 = 0)

/-- A write of word w of route entry k (R294). -/
def State.routeWrite (s : State) (l : LaneId) (k : Fin 4) (w : Fin 3) (v : Word) : State :=
  let d := laneDie l
  let cfg := s.laneCfg l
  let v := v &&& (match w with | 0 => 0x73#32 | 1 => 0xFFFFFFFF#32 | 2 => 0xF#32)
  if qEN cfg && !(s.maintained l) then s.dMod d 0x3708 (setBit · 0 true)
  else if (w = 0 && bitOf v 6 && !(qFixed cfg)) || (w = 0 && fld v 1 0 == 3 && !(poolTarget (s.routeWord l k 1)))
      || (w = 2 && decide (12 < fld v 3 0)) then s.dMod d 0x3708 (setBit · 1 true)
  else s.dPut d (0x6000 + 0x10 * (4 * laneLocal l + k) + 4 * w) v

/-- A write of RET_CFG: RT_MAX = 0 leaves the field unchanged. -/
def State.retCfgWrite (s : State) (n : Fin 2) (v : Word) : State :=
  let d := newtDie n
  let v := v &&& 0xFFFFFFF0#32
  s.dPut d 0x3700 (if fld v 31 28 = 0 then setFld v 31 28 (fld (s.dGet d 0x3700) 31 28) else v)

end Sys2Proof.Machine
end

