-- ==== Sys2Proof/Machine/Cmac.lean ====
section
/-!
DEFINITION. Machine/Cmac.lean: AES-128 and AES-128-CMAC, which seal the tokens (R388). The manual names the
algorithm and does not restate it; FIPS 197 and NIST SP 800-38B give it.
-/
namespace Sys2Proof.Machine

/-- Multiply by x in GF(2^8) with the polynomial of AES. -/
def aesXtime (b : Byte) : Byte := if b.msb then (b <<< 1) ^^^ 0x1B#8 else b <<< 1

/-- The AES S-box, 16 bytes a number: the byte of a is byte a mod 16 of number a / 16. -/
def aesBox : List Nat := [
  0x76abd7fe2b670130c56f6bf27b777c63, 0xc072a49cafa2d4adf04759fa7dc982ca,
  0x1531d871f1e5a534ccf73f362693fdb7, 0x75b227ebe28012079a059618c323c704,
  0x842fe329b3d63b52a05a6e1b1a2c8309, 0xcf584c4a39becb6a5bb1fc20ed00d153,
  0xa89f3c507f02f94585334d43fbaaefd0, 0xd2f3ff1021dab6bcf5389d928f40a351] ++ [
  0x73195d643d7ea7c41744975fec130ccd, 0xdb0b5ede14b8ee4688902a22dc4f8160,
  0x79e4959162acd3c25c2406490a3a32e0, 0x08ae7a65eaf4566ca94ed58d6d37c8e7,
  0x8a8bbd4b1f74dde8c6b4a61c2e2578ba, 0x9e1dc186b95735610ef6034866b53e70,
  0xdf2855cee9871e9b948ed9691198f8e1, 0x16bb54b00f2d99416842e6bf0d89a18c]
/-- The S-box of a byte. -/
def aesSub (a : Byte) : Byte := BitVec.ofNat 8 (aesBox.getD (a.toNat / 16) 0 / 256 ^ (a.toNat % 16))

/-- Byte i of a block, byte 0 first in the order the block is written. -/
def byteAt (l : List Byte) (i : Nat) : Byte := l.getD i 0#8

/-- Exclusive-OR of two lists of bytes. -/
def xorBytes (a b : List Byte) : List Byte := List.zipWith (· ^^^ ·) a b

/-- SubBytes and ShiftRows of a 16-byte block (column-major). -/
def aesShiftSub (l : List Byte) : List Byte :=
  (List.range 16).map fun i => aesSub (byteAt l ((i + 4 * (i % 4)) % 16))

/-- MixColumns. -/
def aesMix (l : List Byte) : List Byte :=
  (List.range 16).map fun i =>
    let c := 4 * (i / 4)
    let a := byteAt l (c + i % 4)
    let b := byteAt l (c + (i + 1) % 4)
    aesXtime a ^^^ (aesXtime b ^^^ b) ^^^ byteAt l (c + (i + 2) % 4) ^^^ byteAt l (c + (i + 3) % 4)

/-- The next round key from the present one and the round constant. -/
def aesNextKey (k : List Byte) (rcon : Byte) : List Byte :=
  let t := [aesSub (byteAt k 13) ^^^ rcon, aesSub (byteAt k 14), aesSub (byteAt k 15), aesSub (byteAt k 12)]
  let w0 := xorBytes (k.take 4) t
  let w1 := xorBytes ((k.drop 4).take 4) w0
  let w2 := xorBytes ((k.drop 8).take 4) w1
  let w3 := xorBytes ((k.drop 12).take 4) w2
  w0 ++ w1 ++ w2 ++ w3

/-- Rounds 1 to 10: n rounds remain, the last one without MixColumns. -/
def aesRounds : Nat → List Byte → List Byte → Byte → List Byte
  | 0, st, _, _ => st
  | n + 1, st, k, rcon =>
    let k' := aesNextKey k rcon
    let s := aesShiftSub st
    aesRounds n (xorBytes (if n = 0 then s else aesMix s) k') k' (aesXtime rcon)

/-- AES-128 of one 16-byte block. -/
def aes128 (key block : List Byte) : List Byte := aesRounds 10 (xorBytes block key) key 1#8

/-- Left shift by one of a 16-byte block read as a big-endian number. -/
def cmacDouble (l : List Byte) : List Byte :=
  let x := leNat l.reverse
  let y := (2 * x) % 2 ^ 128
  (leBytes 16 (if x.testBit 127 then Nat.xor y 0x87 else y)).reverse

/-- CBC over the blocks but the last, then the last block with its subkey. -/
def cmacChain (key k1 k2 : List Byte) : Nat → List Byte → List Byte → List Byte
  | 0, _, x => x
  | n + 1, m, x =>
    if m.length ≤ 16 then
      let last := if m.length = 16 then xorBytes m k1
        else xorBytes (m ++ [0x80#8] ++ List.replicate (15 - m.length) 0#8) k2
      aes128 key (xorBytes x last)
    else cmacChain key k1 k2 n (m.drop 16) (aes128 key (xorBytes x (m.take 16)))

/-- AES-128-CMAC of a message: 16 bytes, first byte first. -/
def cmac (key msg : List Byte) : List Byte :=
  let l := aes128 key (List.replicate 16 0#8)
  let k1 := cmacDouble l
  let k2 := cmacDouble k1
  cmacChain key k1 k2 (msg.length / 16 + 1) msg (List.replicate 16 0#8)

end Sys2Proof.Machine
end

