-- ==== Sys2Proof/Machine/Tansy.lean ====
section
/-!
DEFINITION. Machine/Tansy.lean: the capability checker: the token check (R391), minting (R393), outbound tokens (R394) and
binding of host slots (R395).
-/
namespace Sys2Proof.Machine

/-- Step 1: form (Table 13-6). -/
def tokForm (t : Token) : Bool :=
  fld t 23 21 == 0 && fld t 38 28 == 0 && decide (4 ≤ tokLog t) && decide (tokLog t ≤ 31) &&
    decide (tokBase t % 2 ^ tokLog t = 0)
/-- The seal of token bytes 0 to 11 under a key (Table 13-5); byte i of the key is bits [8i+7:8i] of its words in order
(log 24). -/
def sealOf (key : BitVec 128) (t : Token) : Word :=
  BitVec.ofNat 32 (leNat ((cmac (leBytes 16 key.toNat) (leBytes 12 t.toNat)).take 4))
/-- Step 2: seal. -/
def State.tokSealed (s : State) (t : Token) : Bool := sealOf s.sealKey t = tokSeal t
/-- Step 3: object. -/
def State.tokObject (s : State) (t : Token) : Bool :=
  let o := s.obj (tokIndex t)
  tokIssuer t == s.devId && o.valid && o.epoch.toNat == tokEpoch t
/-- Steps 1 to 3: the number of the first that fails. -/
def State.tokIdentity (s : State) (t : Token) : Option Nat :=
  if !(tokForm t) then some 1 else if !(s.tokSealed t) then some 2 else if !(s.tokObject t) then some 3 else none
/-- Step 4: range, of an access to fabric address a of n bytes. -/
def State.tokRange (s : State) (t : Token) (a n : Nat) : Bool :=
  a / 2 ^ 31 == s.devId && decide (tokBase t ≤ a) && decide (a + n ≤ tokBase t + 2 ^ tokLog t)
/-- Whether a local address is ENG_DOORBELL of an engine, in the engine I/O alias. -/
def isDoorbell (x : Nat) : Bool := within x 0x18000000 0x1863FFFF && decide (x % 0x10000 = 0x8D4)
/-- Step 5: rights. -/
def tokAllows (t : Token) (x : Nat) (wr : Bool) : Bool :=
  let r := tokRights t
  (bitOf r (if wr then rWR else rRD) && (!(inAlias x) || bitOf r rREG)) || (wr && isDoorbell x && bitOf r rDBELL)
/-- Steps 1 to 5 for a chain request. -/
def State.tokCheck (s : State) (t : Token) (a n : Nat) (wr : Bool) : Bool :=
  (s.tokIdentity t).isNone && s.tokRange t a n && tokAllows t (a % 2 ^ 31) wr
/-- Steps 3 to 5 for a host request (R396). -/
def State.hostCheck (s : State) (t : Token) (a n : Nat) (wr : Bool) : Bool :=
  s.tokObject t && s.tokRange t a n && tokAllows t (a % 2 ^ 31) wr
/-- World of a token's object. -/
def State.tokWorld (s : State) (t : Token) : World := (s.obj (tokIndex t)).world

/-! ## Outbound tokens (R394) -/

/-- Outbound token entry i of a world. -/
def State.capOut (s : State) (w : World) (i : Nat) : Token :=
  BitVec.ofNat 128 (sumNat ((List.range 4).map fun j =>
    (s.n0 (0x2000 + 0x400 * worldBit w + 0x10 * i + 4 * j)).toNat * 2 ^ (32 * j)))
/-- The lowest-numbered non-empty entry of a world whose range covers an access (R394). -/
def State.coverToken (s : State) (w : World) (a n : Nat) : Option Token :=
  ((List.range 64).map (s.capOut w)).find? fun t =>
    t ≠ 0 && decide (tokBase t ≤ a) && decide (a + n ≤ tokBase t + 2 ^ tokLog t)
/-- The token that a window names: none with TV = 0 or an empty entry (R394). -/
def State.windowToken (s : State) (attr : Word) : Option Token :=
  let t := s.capOut .T (fld attr 13 8)
  if bitOf attr 14 && t ≠ 0 then some t else none

/-! ## Minting (R393) -/

/-- Whether a local range lies within one partition entry that grants the rights to the world. -/
def State.mintEntry (s : State) (w : World) (x n : Nat) (r : BitVec 16) : Bool :=
  (List.range 32).any fun e =>
    let v := s.n0 (0x7680 + 4 * e)
    let base := fld v 14 0 * 65536
    let rd := match w with | .T => 27 | .H => 29
    bitOf v 31 && decide (base ≤ x) && decide (x + n ≤ base + 2 ^ fld v 26 22) &&
      (!(bitOf r rRD) || bitOf v rd) && (!(bitOf r rWR) || bitOf v (rd + 1))

/-- Whether a local range may be minted for a world (R393, reason 3). -/
def State.mintRange (s : State) (w : World) (x n : Nat) (r : BitVec 16) : Bool :=
  s.mintEntry w x n r ||
    (match spadEngine x, spadEngine (x + n - 1) with
     | some e, some f => e = f && s.world e = w
     | _, _ => false) ||
    (bitOf r rREG && (aliasOf x n).isSome)

/-- The token that TKN_MINT0 to TKN_MINT2 describe, without its seal: issuer and epoch filled in. -/
def State.mintToken (s : State) : Token :=
  let m0 := s.n0 0x7710
  let m2 := s.n0 0x7718
  let i := fld m0 11 0
  BitVec.ofNat 128 (i + s.devId * 2 ^ 12 + fld m0 31 16 * 2 ^ 24 + (s.n0 0x7714).toNat * 2 ^ 40 +
    fld m2 7 0 * 2 ^ 72 + fld m2 13 8 * 2 ^ 80 + (s.obj i).epoch.toNat * 2 ^ 86)

/-- Reason to refuse a mint by a writer of world w, 0 for none (R393). -/
def State.mintError (s : State) (w : World) (t : Token) : Nat :=
  let o := s.obj (tokIndex t)
  let x := tokBase t % 2 ^ 31
  let n := 2 ^ tokLog t
  if !o.valid || o.world ≠ w then 1
  else if bitOf (tokRights t) rROOT && !s.lark.opened then 2
  else if !s.lark.opened && tokBase t / 2 ^ 31 == s.devId && !(s.mintRange w x n (tokRights t)) then 3
  else if !(tokForm t) then 4
  else 0

/-- A write of TKN_MINT2 with GO = 1 (R393). -/
def State.mint (s : State) (w : World) : State :=
  let t := s.mintToken
  let err := s.mintError w t
  let s := s.n0Mod 0x7730 (setFld · 27 24 err)
  if err ≠ 0 then s
  else
    let t := setFld t 127 96 (sealOf s.sealKey t).toNat
    let s := forAll (List.range 4) s fun j u => u.n0Put (0x7720 + 4 * j) (BitVec.ofNat 32 (fld t (32 * j + 31) (32 * j)))
    { s with mintWorld := w }

/-! ## Host slots (R395 to R397) -/

/-- Whether a slot is bound: slot 0 is while Larkspur is open (R397). -/
def State.slotBound (s : State) (i : SlotId) : Bool := s.hslots[i].bound || (s.lark.opened && i = 0)

/-- A BIND of slot i: ERR 5 where it is bound, 1 to 3 for the failing step, 4 for LOG2LEN below 12 (R395). -/
def State.bindSlot (s : State) (i : SlotId) : State :=
  if s.slotBound i then s.modSlot i fun h => { h with err := 5 }
  else
    let t := s.hslots[i].token
    match s.tokIdentity t with
    | some step => s.modSlot i fun h => { h with err := step }
    | none =>
      if tokLog t < 12 then s.modSlot i fun h => { h with err := 4 }
      else s.modSlot i fun h => { h with bound := true, stale := false, err := 0 }

/-- A fall of PERST_N unbinds every slot (R442). -/
def State.unbindAll (s : State) : State := { s with hslots := .replicate 64 {} }

/-- HSLOT_CTL as read. -/
def State.slotCtl (s : State) (i : SlotId) : Word :=
  let h := s.hslots[i]
  at32 30 (b2n (s.slotBound i)) ||| at32 29 (b2n h.stale) ||| at32 24 h.err

end Sys2Proof.Machine
end

