-- ==== Sys2Proof/Machine/Lark.lean ====
section
/-!
DEFINITION. Machine/Lark.lean: dual commit (R398 to R404): items, proposal, confirmation, timeout, values in force, seal, and
the clearing of an engine that changes world (R377).
-/
namespace Sys2Proof.Machine

/-! ## WLD_ENG -/

/-- WLD_ENGk as read: bit i is engine 32k + i, 1 for the Host-service world. -/
def State.wldWord (s : State) (k : Nat) : Word :=
  BitVec.ofNat 32 (sumNat ((List.range 32).map fun i =>
    if h : 32 * k + i < 100 then worldBit (s.world ⟨32 * k + i, h⟩) * 2 ^ i else 0))

/-- The world that value words of item 0x0001 give engine e. -/
def mapWorld (val : Vector Word 4) (e : EngineId) : World :=
  if bitOf (val[e.val / 32]'(by omega)) (e.val % 32) then .H else .T

/-! ## Items (Table 13-7) -/

/-- Whether a DMA channel runs, is paused or is stopped with a context that names an engine (R376). -/
def State.dmaNames (s : State) (e : EngineId) : Bool :=
  (List.finRange 56).any fun c => s.dma[c].st ≠ .idle && s.ctxEngine (chanDie c) s.dma[c].context = e

/-- A new world map is valid (R376). -/
def State.worldsValid (s : State) (val : Vector Word 4) : Bool :=
  bitOf val[3] 0 && fld val[3] 31 4 == 0 &&
    (List.finRange 100).all fun e => mapWorld val e = s.world e || ((s.eng e).mode = 0 && !(s.dmaNames e))

/-- Whether a staged item and value may be proposed and committed (Table 13-7). -/
def State.larkValid (s : State) (x : Side) : Bool :=
  let i := x.item.toNat
  let v := x.val
  if i = 1 then s.worldsValid v
  else if within i 0x100 0x11F then
    v[1] = 0 && v[2] = 0 && v[3] = 0 && fld v[0] 21 15 == 0 &&
      (!(bitOf v[0] 31) || (decide (16 ≤ fld v[0] 26 22) && decide (fld v[0] 14 0 * 65536 % 2 ^ fld v[0] 26 22 = 0)))
  else if within i 0x200 0x201 then
    v[2] = 0 && v[3] = 0 && fld v[0] 3 0 == 0 && fld v[1] 31 9 == 0 && decide (v[1].toNat ≤ 256) &&
      (!(bitOf v[0] 31) || (fld v[0] 30 18 == 0 && decide (fld v[0] 17 4 * 16 + 16 * v[1].toNat ≤ 0x40000)))
  else if i = 0x300 then true
  else if i = 0x400 then
    let o := s.obj (fld v[0] 11 0)
    v[2] = 0 && v[3] = 0 && fld v[0] 31 12 == 0 && fld v[1] 29 10 == 0 &&
      !(o.valid && bitOf v[1] 31 && decide (fld v[1] 9 0 ≤ o.epoch.toNat))
  else if i = 0x500 then
    let k := fld v[0] 4 0
    let e := fld v[0] 14 8
    v[1] = 0 && v[2] = 0 && v[3] = 0 && fld v[0] 7 5 == 0 && fld v[0] 31 16 == 0 && decide (e < 100) &&
      (if bitOf v[0] 15 then (s.decHolder k).any (fun h => h.val == e) else (s.claimOf (decNewt k) (decReg k)).isNone)
  else if i = 0x600 then fld v[3] 31 4 == 0
  else false

/-- Apply an item's value (R402). An engine whose world changes begins its clearing (R377). -/
def State.larkApply (s : State) (x : Side) : State :=
  let i := x.item.toNat
  let v := x.val
  if i = 1 then
    s.mapEng fun e g => if mapWorld v e = g.world then g else { g with world := mapWorld v e, clearing := 2048 }
  else if within i 0x100 0x11F then s.n0Put (0x7680 + 4 * (i - 0x100)) v[0]
  else if within i 0x200 0x201 then
    (s.n0Put (0x7660 + 8 * (i - 0x200)) v[0]).n0Put (0x7664 + 8 * (i - 0x200)) v[1]
  else if i = 0x300 then
    { s with sealKey := BitVec.ofNat 128 (sumNat ((List.finRange 4).map fun j => v[j].toNat * 2 ^ (32 * j.val))) }
  else if i = 0x400 then
    let o : Obj := Obj.mk (bitOf v[1] 31) (if bitOf v[1] 30 then .H else .T) (BitVec.ofNat 10 (fld v[1] 9 0))
    { s with objects := smPut objDefault s.objects (fld v[0] 11 0) o }
  else if i = 0x500 then
    let k := fld v[0] 4 0
    let e : EngineId := ⟨fld v[0] 14 8 % 100, by omega⟩
    s.setDec k (if bitOf v[0] 15 then none else some { holder := .engine e, world := s.world e })
  else if i = 0x600 then forAll (List.finRange 4) s fun j t => t.n0Put (0x7650 + 4 * j.val) v[j]
  else s

/-! ## The protocol (R401) -/

/-- The side of an access: T for TS, H for HS and for the host with ROOT (R399). -/
def sideOf (a : Access) : World := if a.host then .H else a.world
def State.side (s : State) (w : World) : Side := match w with | .T => s.lark.sideT | .H => s.lark.sideH
def State.setSide (s : State) (w : World) (x : Side) : State :=
  match w with
  | .T => { s with lark := { s.lark with sideT := x } }
  | .H => { s with lark := { s.lark with sideH := x } }

/-- The digest of the proposal (R400). -/
def State.larkDigest (s : State) : Word :=
  let p := s.lark.prop
  crc32c (leBytes 4 p.item.toNat ++ leBytes 4 s.lark.seq.toNat ++
    (List.finRange 4).flatMap fun j => leBytes 4 p.val[j].toNat)

/-- The alarm (R403): ALARM, interrupt line 6 on every engine, host vector 0. -/
def State.larkAlarm (s : State) : State :=
  ({ s with lark := { s.lark with alarm := true } }.lineAll 6).msi 0

/-- Discard the proposal with a result. -/
def State.larkClear (s : State) (r : LarkLast) : State :=
  { s with lark := { s.lark with proposed := false, last := r, confirmed := none } }

/-- Accesses of the chain and of the host whose token check has passed and that have not been made. -/
def State.checkedUses (s : State) : List BeatUse :=
  ((List.finRange 4).flatMap fun p => s.ports[p].vc1.map fun x => .chain p x.2.1 x.2.2) ++
    s.beats.filterMap fun b => match b.use with
      | .chain p k w => some (.chain p k w)
      | .host i x w n v u r => some (.host i x w n v u r)
      | _ => none
/-- A write of the chain or of the host that was checked before the last commit is held at its target (R179, R257, R295). -/
def State.heldOld (s : State) : Bool :=
  let old : Option Waiter → Bool
    | some (.outer n) => decide (n < s.lark.gen)
    | _ => false
  (s.engines.any fun g => g.iqHeld.any (fun h => old h.who) || g.ilHeld.any fun h => old h.2) ||
    s.fox.any fun x => x.waiting.any fun h => old h.2.2
/-- One of the chain or of the host is held at its target at all. -/
def State.heldOuter (s : State) : Bool :=
  let outer : Option Waiter → Bool
    | some (.outer _) => true
    | _ => false
  (s.engines.any fun g => g.iqHeld.any (fun h => outer h.who) || g.ilHeld.any fun h => outer h.2) ||
    s.fox.any fun x => x.waiting.any fun h => outer h.2.2
/-- An item whose commit waits for the accesses that were checked before it: an epoch or a key (R392, R402). -/
def larkAwaits (item : Word) : Bool := item = 0x300 || item = 0x400
/-- A committed value is in force: the proposal ends and LAST reads committed, at once or when the accesses checked before it have
completed; until then STATE stays as it is (R401, R402). -/
def State.larkCommit (s : State) (x : Side) : State :=
  if larkAwaits x.item && (!s.checkedUses.isEmpty || s.heldOuter) then
    let t := s.larkApply x
    { t with lark := { t.lark with old := some s.checkedUses, gen := t.lark.gen + 1, confirmed := none } }
  else
    let t := (s.larkApply x).larkClear .committed
    { t with lark := { t.lark with old := none } }

/-- A PROPOSE (R401). -/
def State.larkPropose (s : State) (p : World) : State :=
  let l := s.lark
  let x := s.side p
  if l.proposed || l.old.isSome then { s with lark := { l with last := .busy } }
  else if !(s.larkValid x) then { s with lark := { l with last := .refused } }
  else if l.opened then s.larkCommit x
  else { s with lark := { l with prop := x, seq := l.seq + 1, side := p, proposed := true, since := s.fc } }

/-- A CONFIRM with digest d (R401). -/
def State.larkConfirm (s : State) (c : World) (d : Word) : State :=
  let l := s.lark
  if !l.proposed || l.confirmed.isSome || l.old.isSome then s
  else if c = l.side then { s with lark := { l with last := .sameSide } }
  else if d ≠ s.larkDigest then (s.larkClear .mismatch).larkAlarm
  else if !(s.larkValid l.prop) then s.larkClear .refused
  else { s with lark := { l with confirmed := some (s.fc + 16) } }

/-- A confirmed value comes into force, or the accesses checked under the old one have completed (R392, R402). -/
def State.larkForce (s : State) : State :=
  match s.lark.old with
  | some l =>
    if l.any (s.checkedUses.contains ·) || s.heldOld then s
    else
      let t := s.larkClear .committed
      { t with lark := { t.lark with old := none } }
  | none => if s.lark.proposed && s.lark.confirmed.isSome then s.larkCommit s.lark.prop else s

/-- The timer of a proposal expires, 2^24 fc after it started (R401). -/
def State.larkTimeout (s : State) : State :=
  if s.lark.proposed && s.lark.confirmed.isNone && s.lark.old.isNone && decide (s.lark.since + 2 ^ 24 ≤ s.fc) then
    (s.larkClear .timeout).larkAlarm
  else s

/-- The seal, by HS or by the host with ROOT (R404). -/
def State.larkSeal (s : State) (a : Access) (v : Word) : State :=
  if bitOf v 0 && (a.root || a.world = .H) then { s with lark := { s.lark with opened := false } } else s

def larkLastCode : LarkLast → Nat
  | .none => 0 | .committed => 1 | .mismatch => 2 | .timeout => 3 | .refused => 4 | .busy => 5 | .sameSide => 6

/-- LARK_STAT as read. -/
def larkStat (l : Lark) : Word :=
  at32 30 (b2n l.proposed) ||| at32 29 (b2n l.opened) ||| at32 28 (worldBit l.side) ||| at32 27 (b2n l.alarm) |||
    at32 24 (larkLastCode l.last) ||| at32 0 l.seq.toNat

/-! ## Clearing of an engine (R377) -/

/-- State that POR_N and a world change clear: every register, port, LC, RA and launch register, PC and flags (R41, R377, R415),
and the engine has not run (R419). -/
def Engine.clearState (g : Engine) : Engine :=
  { g with gr := .replicate 32 0, vr := .replicate 16 0, pr := .replicate 8 0, units := .replicate 16 {}, lc := 0, ra := 0,
           launch := 0, inflight := [], owed := [], fabQ := [], sbuf := [], waitTo := none, launchWait := false, repLeft := none,
           bubbles := 0, haz := {}, seqBusy := 0, holdDue := 0, arrived := [], came := [], vrOld := [], vrDirect := 0, iw := [],
           returning := none, portB := [], yields := [], ifill := none, tables := [], entryFrame := none, vtrig := false,
           walked := none, fetchErr := none, pc := 0, astat := 0, repResume := 0, fetched := 0, activeB := false,
           everRun := false, capErr := none, hazSaved := [], hazExempt := false }

/-- The end of the clearing of an engine whose world has changed (R377). -/
def State.worldClear (s : State) (e : EngineId) : State :=
  if (s.eng e).clearing = 0 then s
  else
    let s := s.dropEngine e
    let s := { s with mem := smClear s.mem (0x10000000 + e.val * 0x40000) (0x10000000 + (e.val + 1) * 0x40000) }
    let s := s.modEng e fun g =>
      let h := g.clearState
      let h := { h with imem := [], romA := false, clearing := 0, ilBuf := none }
      let h := (((h.ioPut 0x880 0).ioPut 0x884 0).ioPut 0x88C 0).ioPut 0x81C (h.ioGet 0x81C &&& 0x70#32)
      { h with io := smClear h.io 0xA00 0xB00 }
    let s := s.n0Mod (0x7650 + 4 * (e.val / 32)) (setBit · (e.val % 32) false)
    forAll (List.finRange 8) s fun d t =>
      forAll (List.range 64) t fun n u =>
        if fld (u.dGet d (0x7800 + 8 * n)) 6 0 == e.val then u.dMod d (0x7800 + 8 * n) (setBit · 31 false) else u

end Sys2Proof.Machine
end

