-- ==== Sys2Proof/Machine/Modes.lean ====
section
/-!
DEFINITION. Machine/Modes.lean: modes of engines and dies (R412 to R418), entry into quarantine (R421), the reset of a master
(R328), the pins that follow (R438), and the acceptance of instruction halves (R93 to R96).
-/
namespace Sys2Proof.Machine

/-! ## Status pins (R438) -/

/-- THERM_STAT.TRIP. -/
def State.tripped (s : State) : Bool := bitOf (s.n0 0x7F08) 1
/-- FAULT_N is low: an engine in MD11 with reason 1, or a thermal trip. -/
def State.faultPin (s : State) : Bool :=
  s.tripped || (List.finRange 100).any fun e => (s.eng e).mode = 11 && fld (s.ioGet e 0xB30) 2 0 == 1
/-- READY is released: AON, CALS, KEEPER and BOOTED are all 1. -/
def State.readyPin (s : State) : Bool :=
  let r := s.n0 0x7E00
  !s.inReset && bitOf r 0 && bitOf r 1 && bitOf r 5 && (s.eng 96).running && bitOf r 6
/-- PWR_FAIL is high: a thermal trip, or a reset held by the supply monitor. -/
def State.pwrFail (s : State) : Bool := s.tripped || s.supplyHold
/-- Send MSI-X vector 2 where FAULT_N has become asserted (R448). -/
def State.faultMsi (s old : State) : State := if s.faultPin && !old.faultPin then s.msi 2 else s

/-! ## Reset of a master (R328) and quarantine (R421) -/

/-- Whether an operation in flight waits for the fabric. -/
def Op.variable (o : Op) : Bool :=
  match o.act with
  | .mem _ _ _ | .ready _ | .rpio _ => true
  | _ => false

/-- Whether the data of a fabric load is complete. -/
def Op.isReady (o : Op) : Bool :=
  match o.act with
  | .ready _ => true
  | _ => false

/-- Whether a request is a drain of the store buffer. -/
def FabUse.isDrain : FabUse → Bool
  | .drain => true
  | _ => false
/-- Whether an exception entry leaves a request waiting: a drain, or the rest of a write that had begun (R182, R353). -/
def FabUse.stays : FabUse → Bool
  | .drain | .rest => true
  | _ => false

/-- A master is reset (R328): its queued requests are dropped, the outstanding one ends with strobes clear or its data
discarded, and operations that wait for it deliver nothing; a load whose data is complete still delivers. Buffered stores stay
complete for the engine and drain later (R182); a drain in progress leaves the buffer. -/
def Engine.masterReset (g : Engine) : Engine :=
  { g with
    fabQ := g.fabQ.filter fun p => p.2.isDrain
    sbuf := if g.fabOut.any (fun f => f.use.isDrain) then g.sbuf.tail else g.sbuf
    fabOut := g.fabOut.map fun f => { f with req := { f.req with strobe := 0 }, use := .discard }
    inflight := g.inflight.filter fun o => !o.variable || o.isReady }

/-! ## Arms of timed commits (R248) -/

/-- An acknowledged change that has not been applied. -/
def Arm.waits (a : Arm) : Bool := a.acked && !a.applied
/-- The arms that a unit holds, oldest first: those of earlier commits, then that of the last ARM. -/
def Engine.arms (g : Engine) : List Arm := g.armed ++ g.arm.toList
def Die.arms (x : Die) : List Arm := x.armed ++ x.arm.toList
/-- Every arm held changes. -/
def Engine.modArms (g : Engine) (f : Arm → Arm) : Engine := { g with arm := g.arm.map f, armed := g.armed.map f }
def Die.modArms (x : Die) (f : Arm → Arm) : Die := { x with arm := x.arm.map f, armed := x.armed.map f }
/-- A new arm; the one before it stays held where it has been acknowledged. -/
def Engine.holdArm (g : Engine) (a : Arm) : Engine :=
  { g with arm := some a, armed := g.armed ++ (g.arm.filter (·.acked)).toList }
def Die.holdArm (x : Die) (a : Arm) : Die :=
  { x with arm := some a, armed := x.armed ++ (x.arm.filter (·.acked)).toList }
/-- The change of commit n has been applied. -/
def Arm.done (n : Nat) (a : Arm) : Arm := if a.seq = n then { a with applied := true } else a
/-- The acknowledged change with the earliest T that has come by time t. -/
def dueArm (l : List Arm) (t : Dword) : Option Arm :=
  (l.filter fun a => a.waits && timeReached a.time t).foldl (fun m a =>
    match m with
    | some b => if a.time ≠ b.time ∧ timeReached a.time b.time then some a else m
    | none => some a) none

/-- An acknowledged change leads the engine out of a throughput mode: its stores go straight to the fabric and its vector unit
stays awake (R249). -/
def Engine.leaving (g : Engine) : Bool := g.arms.any fun a => a.waits && (a.mode.any fun t => !(throughput t))

/-- An engine enters MD11 with a reason; a reason already recorded stays (R421). -/
def Engine.quarantine (g : Engine) (reason : Nat) : Engine :=
  if g.mode = 11 then g
  else { ({ g with mode := 11, vidle := 0, btb := [], rstack := [] } : Engine).masterReset with }.ioPut 0xB30 (BitVec.ofNat 32 reason)

/-- A die enters MD11 with a reason. -/
def Die.quarantine (x : Die) (reason : Nat) : Die :=
  if x.mode = 11 then x else { x with mode := 11, qreason := reason }

/-- A stop: every Trigger-world engine (R313) and every die (R421) enters MD11 with reason 4. -/
def State.stopAll (s : State) : State :=
  let s := s.mapEng fun _ g => if g.world = .T then g.quarantine 4 else g
  { s with dies := .ofFn fun d => s.dies[d].quarantine 4 }

/-- Every engine and die enters MD11 with reason 5 (R431). -/
def State.tripAll (s : State) : State :=
  let s := s.mapEng fun _ g => g.quarantine 5
  { s with dies := .ofFn fun d => s.dies[d].quarantine 5 }

/-! ## Mode changes of an engine -/

/-- A mode takes effect: the branch target buffer and return stack are cleared (R69), the idle count restarts (R155), the caches
are empty on entry to a throughput mode (R180), and the vector unit is on outside them (R157). -/
def Engine.setMode (g : Engine) (m : Fin 12) : Engine :=
  let g := { g with mode := m, vidle := 0, btb := [], rstack := [], vdue := false }
  if throughput m then { g with icache := [], dcache := [] } else { g with vpwr := .on, vwake := 0 }

/-! ## Acceptance of a half (R93 to R97) -/

/-- ENG_IMGSTAT: acceptance and MD8ONLY of a half. -/
def Engine.accepted (g : Engine) (b : Bool) : Bool := bitOf (g.ioGet 0x81C) (b2n b)
def Engine.md8only (g : Engine) (b : Bool) : Bool := bitOf (g.ioGet 0x81C) (2 + b2n b)
/-- The half that holds a scratchpad bundle index. -/
def halfOf (pc : Word) : Bool := bitOf pc 11
/-- Half that a start of the engine would run from (R419, R420). A held PC of far code names no half; bit 11 of it is taken as
the half (DESIGN CHOICE, log 77). -/
def Engine.startHalf (g : Engine) : Bool :=
  if bitOf (g.ioGet 0xB10) 31 then bitOf (g.ioGet 0xB10) 0 else halfOf g.pc
/-- Whether an armed change relies on the acceptance of a half (R249). -/
def Engine.armUses (g : Engine) (b : Bool) (a : Arm) : Bool :=
  a.waits &&
    (if a.swap then b == !g.activeB
     else (g.mode = 0 || g.mode = 10) && (a.mode.any runningMode) && b == g.startHalf)
/-- A write into a half clears its acceptance and MD8ONLY bits (R95); an acknowledged change that needs the half is broken
(R249). -/
def Engine.clearAcc (g : Engine) (b : Bool) : Engine :=
  let h := g.ioPut 0x81C (setBit (setBit (g.ioGet 0x81C) (b2n b) false) (2 + b2n b) false)
  h.modArms fun a => if g.armUses b a then { a with broken := true } else a

/-! ## Entry points (R419) -/

/-- Entry k of a half. -/
def Engine.entryPc (g : Engine) (b : Bool) (k : Nat) : Nat :=
  let v := g.ioGet (0xB20 + 4 * (k % 4))
  if b then fld v 27 16 else fld v 11 0
/-- An entry index lies in a half. -/
def inHalf (b : Bool) (pc : Nat) : Bool := decide (2048 ≤ pc) == b

/-- The engine starts at a bundle of a half: the program's control state begins anew. -/
def Engine.startAt (g : Engine) (b : Bool) (pc : Nat) : Engine :=
  { g with pc := BitVec.ofNat 32 pc, activeB := b, everRun := true, bubbles := 0, repLeft := none, repResume := 0,
           holdDue := 0, iw := [], fetchErr := none, waitTo := none, returning := none, entryFrame := none, tables := [],
           ifill := none, arrived := [], came := [], vrOld := [], vrDirect := 0,
           launchWait := false, btb := [], rstack := [], slip := 0, cycleOpen := true }

/-- The STATUS field of ENG_START set, and PEND cleared where the start was made (R419, R420). -/
def Engine.startStatus (g : Engine) (st : Nat) : Engine :=
  let v := setFld (g.ioGet 0xB10) 5 4 st
  g.ioPut 0xB10 (if st = 1 then setBit v 31 false else v)

/-! ## READY bits (R424) -/

/-- READY bit of an engine, as BRING_UP left it. -/
def State.engReady (s : State) (e : EngineId) : Bool := bitOf (s.n0 (0x7E04 + 4 * (e.val / 32))) (e.val % 32)

end Sys2Proof.Machine
end

