-- ==== Sys2Proof/Machine/Wire.lean ====
section
/-!
DEFINITION. Machine/Wire.lean: chain packets as bytes (R303), their CRC, the ports of the time tree (R231, R247) and packets
sent on a port.
-/
namespace Sys2Proof.Machine

/-- The four header words of a packet (Table 10-7). -/
def pktHeader (k : Packet) : List Word :=
  [ at32 24 k.len.toNat ||| at32 20 k.kind.toNat ||| at32 18 k.vc.toNat ||| at32 9 k.src.toNat ||| at32 0 k.dst.toNat,
    at32 24 k.hops.toNat ||| at32 22 (b2n k.posted) ||| at32 21 (b2n k.bcast) ||| at32 20 (b2n k.tok.isSome) |||
      at32 16 k.status.toNat ||| at32 0 k.reqid.toNat,
    k.addr.setWidth 32, BitVec.ofNat 32 (fld k.addr 39 32) ]

/-- The bytes that the CRC of a packet covers: header, token, payload (R303). -/
def pktBytes (k : Packet) : List Byte :=
  (pktHeader k).flatMap (fun w => leBytes 4 w.toNat) ++
    (match k.tok with | some t => leBytes 16 t.toNat | none => []) ++ k.data.flatMap (fun w => leBytes 4 w.toNat)

/-- The CRC that a packet must carry. -/
def pktCrc (k : Packet) : Word := crc32c (pktBytes k)
/-- A packet arrived with a good CRC. -/
def pktGood (k : Packet) : Bool := k.crc = pktCrc k
/-- A packet with its CRC filled in. -/
def sealPkt (k : Packet) : Packet := { k with crc := pktCrc k }

/-- A VC0 packet of this package (Table 10-8). -/
def State.vc0 (s : State) (kind : Nat) (data : List Word) : Packet :=
  sealPkt {
    dst := 0, src := BitVec.ofNat 9 s.devId, vc := 0, kind := BitVec.ofNat 4 kind, len := BitVec.ofNat 8 data.length,
    reqid := 0, status := 0, tok := none, bcast := kind == 7, posted := false, hops := 0, addr := 0, data := data,
    crc := 0, slot := 0 }

/-- A packet leaves on a port and stays in the port's replay buffer of 32 (R309). -/
def State.sendPkt (s : State) (p : PortId) (k : Packet) : State :=
  s.modPort p fun x =>
    { x with tx := x.tx ++ [k], replay := (x.replay ++ [k]).drop (x.replay.length - 31) }
/-- A packet leaves on every port that satisfies f. -/
def State.floodPkt (s : State) (f : PortId → Bool) (k : Packet) : State :=
  forAll (List.finRange 4) s fun p t => if f p then t.sendPkt p k else t

/-- The upstream port of a package that is not the time root (HEL_CFG.UPPORT). -/
def State.upPort (s : State) : Option PortId :=
  let c := s.n0 0x5000
  if bitOf c 31 then none
  else if h : fld c 30 28 < 4 then some ⟨fld c 30 28, h⟩ else none

/-- The ports to the packages below in the time tree: up, and a TIME_REQ has arrived on them (log 26). -/
def State.childPort (s : State) (p : PortId) : Bool := s.ports[p].up && s.ports[p].child && s.upPort ≠ some p

end Sys2Proof.Machine
end

