-- ==== Sys2Proof/Machine/Helio.lean ====
section
/-!
DEFINITION. Machine/Helio.lean: Heliotrope (R221 to R234): the reference, lock, epoch, calibration against the parent and the
correction of TIM_NOW.
-/
namespace Sys2Proof.Machine

/-- Heliotrope's part of the state changed. -/
def State.modHel (s : State) (f : Helio → Helio) : State := { s with helio := f s.helio }
/-- A flag of HEL_STAT set: 23 CFG_ERR, 22 REF_LOST, 21 ALIGN_LOST, 20 CAL_FAIL. -/
def State.helFlag (s : State) (bit : Nat) : State := s.n0Mod 0x5004 (setBit · bit true)
/-- HEL_STAT.DEPTH. -/
def State.helDepth (s : State) (n : Nat) : State := s.n0Mod 0x5004 (setFld · 15 8 n)

/-- A change of state (R227): the time event on every engine and host vector 4; an exit from ALIGNED breaks the changes of
Trigger-world engines into a deterministic mode that have been acknowledged (R249), but for one into the mode that the engine has
(R418). -/
def State.helTo (s : State) (st : HelSt) : State :=
  let old := s.helio.st
  if old = st then s
  else
    let s := ((s.modHel fun h => { h with st := st }).lineAll 0).msi 4
    if old = .aligned then
      s.mapEng fun _ g => g.modArms fun a =>
        if g.world = .T && a.waits && (a.mode.any fun t => determ t && t ≠ g.mode) then { a with broken := true } else a
    else s

/-- ALIGNED is left for LOCKED (R227, R233). -/
def State.helUnalign (s : State) : State := (s.helTo .locked).helFlag 21

/-- Fall to FREE: Trigger-world engines in deterministic modes enter MD11 with reason 3 (R230). -/
def State.helFree (s : State) : State :=
  let was := s.onExpref
  let s := (s.helTo .free).modHel fun h => { h with cal := none, slew := 0, wasAligned := false }
  if was then s.mapEng fun _ g => if g.world = .T && determ g.mode then g.quarantine 3 else g else s

/-- EXPREF is lost (R221, R227). -/
def State.helLost (s : State) : State :=
  if s.inReset then s else
  let s := (s.modHel fun h => { h with expref := none }).helFlag 22
  if s.helio.st = .free then s else s.helFree

/-- REFSEL names EXPREF. -/
def refExpref (cfg : Word) : Bool := fld cfg 27 26 ≠ 2
/-- EXPREF frequency in the accepted range (R221). -/
def exprefRange (hz : Nat) : Bool := decide (10000000 ≤ hz) && decide (hz ≤ 250000000)
/-- Multipliers within their limits at a frequency (R222). -/
def multOk (cfg : Word) (hz : Nat) : Bool :=
  decide (fld cfg 23 16 * hz ≤ 1650000000) && decide (fld cfg 15 8 * hz ≤ 1250000000)

/-- An EXPREF signal, or a new measurement of it (R221): wander within 100 ppm is tracked, more is a loss,
and so is one out of range while locking. -/
def State.exprefSeen (s : State) (hz : Nat) : State :=
  if s.inReset then s
  else if s.onExpref then
    let d := if hz < s.helio.lockHz then s.helio.lockHz - hz else hz - s.helio.lockHz
    if d * 10000 ≤ s.helio.lockHz then s.modHel fun h => { h with expref := some hz } else s.helLost
  else if exprefRange hz then
    let s := s.modHel fun h => { h with expref := some hz }
    if refExpref (s.n0 0x5000) then s.helTo .locking else s
  else if s.helio.st = .locking then s.helLost
  else s.modHel fun h => { h with expref := none }

/-- The multipliers acquire EXPREF (R222, R228): LOCKED with TIM_NOW 0, or LOCKING with CFG_ERR where a limit is broken. -/
def State.multLock (s : State) : State :=
  match s.helio.st, s.helio.expref with
  | .locking, some hz =>
    if multOk (s.n0 0x5000) hz then
      let s := (s.stepTime 0).helTo .locked
      s.modHel fun h => { h with lockHz := hz, wasAligned := false, cal := none, slew := 0, slewAt := none }
    else s.helFlag 23
  | _, _ => s

/-- A write of HEL_CFG (R221, R222). R222 does not say whether a write that repeats the present REFSEL, K_E and K_F counts while an
engine is outside MD0 and MD1: here it changes nothing and sets no CFG_ERR (DESIGN CHOICE, log 90). R227 does not say whether
giving EXPREF up by REFSEL = 2 is a loss of it: here Heliotrope goes to FREE without REF_LOST (DESIGN CHOICE, log 91). -/
def State.helCfg (s : State) (v : Word) : State :=
  let old := s.n0 0x5000
  let quiet := (List.finRange 100).all fun e => (s.eng e).mode.val ≤ 1
  let keepRef := fld v 27 26 == 3 || (!quiet && fld v 27 26 ≠ fld old 27 26)
  let kDiff := fld v 23 8 ≠ fld old 23 8
  let hz := s.helio.expref.getD s.helio.lockHz
  let badE := s.onExpref && !(decide (fld v 23 16 * hz ≤ 1650000000))
  let badF := s.onExpref && !(decide (fld v 15 8 * hz ≤ 1250000000))
  let nv := v &&& 0xFCFFFFFF#32
  let nv := if keepRef then setFld nv 27 26 (fld old 27 26) else nv
  let nv := if !quiet || badE then setFld nv 23 16 (fld old 23 16) else nv
  let nv := if !quiet || badF then setFld nv 15 8 (fld old 15 8) else nv
  let s := s.n0Put 0x5000 nv
  let s := if keepRef || (!quiet && kDiff) || badE || badF then s.helFlag 23 else s
  if !(refExpref nv) && s.helio.st ≠ .free then s.helFree
  else if refExpref nv && s.helio.st = .free && s.helio.expref.isSome then s.helTo .locking
  else s

/-- The root loads its epoch at the next time-base edge (R229). -/
def State.epochNow (s : State) : State :=
  let p := fld (s.n0 0x5020) 15 0 * 2 ^ 32 + (s.n0 0x501C).toNat
  (((s.stepTime (mkTime p 0)).helTo .aligned).helDepth 0).modHel fun h => { h with wasAligned := true, slewAt := none }

/-- A write of HEL_EPOCH_HI (R229). -/
def State.epochWrite (s : State) (v : Word) : State :=
  let s := s.n0Put 0x5020 (v &&& 0xFFFF#32)
  let c := s.n0 0x5000
  if bitOf c 31 && !(bitOf c 3) && s.helio.st = .locked then s.epochNow else s

/-- The epoch pulse: a rising edge on the DEC_IN that SYNCIN names (R229). -/
def State.epochPulse (s : State) (k : Nat) : State :=
  let c := s.n0 0x5000
  if bitOf c 31 && bitOf c 3 && fld c 7 4 == k && s.helio.st = .locked then s.epochNow else s

/-! ## Exchanges (R231, R311) -/

/-- TIM_NOW as a capture unit takes it: whole capture steps (R241). -/
def State.stamp (s : State) : Dword := BitVec.ofNat 64 (s.timNow.toNat / 16 * 16)

/-- A fresh calibration of 2^(NAVG+4) exchanges. -/
def State.newCal (s : State) (second : Bool) : Calib :=
  { left := 2 ^ (fld (s.n0 0x5000) 2 0 + 4), made := 0, sumTheta := 0, sumRtt := 0, asked := none,
    since := s.timNow, depth := 0, parentAligned := false, second := second }

/-- A timestamp taken for the time tree by the unit of a port. -/
def State.ttStamp (s : State) (p : PortId) (t : Dword) : State :=
  match s.ports[p].ttUnit with
  | some k =>
    let d := newtDie (portNewt p)
    (s.dPut d (0x5104 + 16 * k) (t.setWidth 32)).dPut d (0x5108 + 16 * k) (BitVec.ofNat 32 (t.toNat / 2 ^ 32))
  | none => s

/-- A calibration begins. -/
def State.calStart (s : State) (second : Bool) : State :=
  s.modHel fun h => { h with cal := some (s.newCal second), calAt := periodOf s.timNow }
/-- A non-root package in LOCKED that has not been aligned begins to calibrate (R232). -/
def State.calBegin (s : State) : State :=
  if s.helio.st = .locked && !s.helio.wasAligned && s.helio.cal.isNone && s.upPort.isSome then
    s.calStart false
  else s

/-- The child sends a request, moved by 0 to 15 capture steps (R231), one in 64 reference periods. -/
def State.timeAsk (s0 : State) : State :=
  let s := s0.calBegin
  match s.helio.cal, s.upPort with
  | some c, some p =>
    if s.ports[p].up && s.ports[p].ttUnit.isSome && c.asked.isNone && decide (0 < c.left) &&
        c.last.all (fun p => decide (64 ≤ s.periodsSince p)) then
      let n := s.helio.exchNo
      let t1 := s.stamp + BitVec.ofNat 64 (Config.jitter s.freeCtr % 16 * 16)
      let s := (s.draw.ttStamp p t1).sendPkt p (s.vc0 4 [BitVec.ofNat 32 n, 0])
      s.modHel fun h => { h with exchNo := (n + 1) % 65536, cal := some { c with
        asked := some (n, t1), last := some (periodOf s.timNow), since := t1 } }
    else s
  | _, _ => s

/-- The parent receives a request and replies with t2, t3 and its own standing (R231, R311). -/
def State.timeReply (s : State) (p : PortId) (k : Packet) : State :=
  if pktGood k && s.ports[p].up && s.ports[p].ttUnit.isSome then
    let s := s.modPort p fun x => { x with child := true }
    let t := s.stamp
    let w (i : Nat) : Word := BitVec.ofNat 32 (t.toNat / 2 ^ (32 * i))
    let st := at32 16 (fld (k.data.getD 0 0) 15 0) ||| at32 8 (b2n (s.helio.st = .aligned)) ||| at32 0 (fld (s.n0 0x5004) 15 8)
    (s.ttStamp p t).sendPkt p (s.vc0 5 [w 0, w 1, w 0, w 1, st, 0])
  else s

/-- Integer quotient rounded to the nearest, halves upward (log 21). -/
def roundDiv (x : Int) (d : Nat) : Int := Int.fdiv (2 * x + d) (2 * d)

/-- The asymmetry constant of a port in fraction units at the measured frequency (R234). -/
def State.asym (s : State) (p : PortId) : Int :=
  let a := (BitVec.ofNat 16 (memNat s.cal (0x100 + 2 * p.val) 2)).toInt
  roundDiv (a * ((s.helio.expref.getD s.helio.lockHz) * 65536 : Nat)) 4000000000000

/-- The child receives a reply (R231). A parent that is not ALIGNED makes it wait, or leave ALIGNED (R232, R233). -/
def State.timeTake (s : State) (p : PortId) (k : Packet) : State :=
  match s.helio.cal with
  | some c =>
    match c.asked with
    | some (n, t1) =>
      let w (i : Nat) : Word := k.data.getD i 0
      if !(pktGood k) || s.upPort ≠ some p || fld (w 4) 31 16 ≠ n then s
      else
        let t4 := s.stamp
        let s := s.ttStamp p t4
        if !(bitOf (w 4) 8) then
          let s := s.modHel fun h => { h with cal := none }
          if s.helio.st = .aligned then s.helUnalign else s
        else
          let t (i : Nat) : Dword := BitVec.ofNat 64 ((w (i + 1)).toNat * 2 ^ 32 + (w i).toNat)
          let theta := (t4 - t 2).toInt - (t 0 - t1).toInt + s.asym p
          let rtt := (t4 - t1).toInt - (t 2 - t 0).toInt
          s.modHel fun h => { h with cal := some { c with
            left := c.left - 1, made := c.made + 1, sumTheta := c.sumTheta + theta, sumRtt := c.sumRtt + rtt, asked := none,
            depth := fld (w 4) 7 0, parentAligned := true } }
    | none => s
  | none => s

/-- Every port that is up measures its shortest VC1 delay: the value is open (log 1). -/
def State.measureMin (s : State) : State :=
  forAll (List.finRange 4) s fun p t =>
    if t.ports[p].up then
      (t.dPut (newtDie (portNewt p)) (0x5814 + 8 * (p.val % 2)) (Config.freeWord t.freeCtr &&& 0xFFF#32)).draw else t

/-- Entry into ALIGNED below a parent. -/
def State.helAlign (s : State) (depth : Nat) : State :=
  ((s.helTo .aligned).helDepth (depth + 1)).modHel fun h => { h with wasAligned := true }

/-- A calibration has made its exchanges (R231 to R233). -/
def State.calDone (s : State) : State :=
  match s.helio.cal with
  | some c =>
    if c.left ≠ 0 || c.made = 0 then s
    else
      let theta := roundDiv c.sumTheta (2 * c.made)
      let rtt := roundDiv c.sumRtt (16 * c.made)
      let s := (s.n0Put 0x5008 (BitVec.ofInt 32 theta)).n0Put 0x500C (BitVec.ofInt 32 rtt)
      let s := s.measureMin
      let small := decide (-16 ≤ theta) && decide (theta ≤ 16)
      let done : State := s.modHel fun h => { h with cal := none }
      match s.helio.st with
      | .locked =>
        if s.helio.wasAligned then
          let slewed := done.modHel fun h => { h with slew := theta }
          if small then slewed.helAlign c.depth else slewed
        else if c.second then
          if small then done.helAlign c.depth else s.calStart false
        else (s.shiftTime (-theta)).calStart true
      | .aligned =>
        if decide (theta < -1024) || decide (1024 < theta) then (done.modHel fun h => { h with slew := theta }).helUnalign
        else done.modHel fun h => { h with slew := theta }
      | _ => done
  | none => s

/-- 10 s have passed since the last calibration began, by the measured frequency. -/
def State.calDue (s : State) : Bool :=
  decide (10 * s.helio.expref.getD s.helio.lockHz ≤ s.periodsSince s.helio.calAt)
/-- The recalibration every 10 s, in ALIGNED and in LOCKED after it (R233). -/
def State.recal (s : State) : State :=
  if (s.helio.st = .aligned || (s.helio.st = .locked && s.helio.wasAligned)) && s.upPort.isSome && s.helio.cal.isNone &&
      s.calDue then s.calStart true
  else s

/-- No reply within 2^16 reference periods of the last request, or of the begin where none could leave (R233). -/
def State.calTimeout (s : State) : State :=
  match s.helio.cal with
  | some c =>
    if c.left ≠ 0 && timeReached (c.since + BitVec.ofNat 64 (65536 * 65536)) s.timNow then
      let s := (s.modHel fun h => { h with cal := none }).helFlag 20
      if s.helio.st = .aligned then s.helUnalign else s
    else s
  | none => s

/-- One phase move: at most one capture step in 1,024 reference periods (R233). -/
def State.phaseSlew (s : State) : State :=
  let h := s.helio
  if h.slew ≠ 0 && h.wasAligned && (h.st = .aligned || h.st = .locked) &&
      h.slewAt.all (fun p => decide (1024 ≤ s.periodsSince p)) then
    let d : Int := if h.slew < -16 then -16 else if 16 < h.slew then 16 else h.slew
    let s := s.shiftTime (-d)
    s.modHel fun h => { h with slew := h.slew - d, slewAt := some (periodOf s.timNow) }
  else s

def helStCode : HelSt → Nat
  | .free => 0 | .locking => 1 | .locked => 2 | .aligned => 3
/-- HEL_STAT as read. -/
def State.helStat (s : State) : Word :=
  (s.n0 0x5004 &&& 0x00F0FF00#32) ||| at32 30 (helStCode s.helio.st) ||| at32 29 (b2n s.onExpref) |||
    at32 28 (b2n s.helio.expref.isSome)

end Sys2Proof.Machine
end

