-- ==== Sys2Proof/Machine/ChainCtl.lean ====
section
/-!
DEFINITION. Machine/ChainCtl.lean: chain ports (R301), device ids (R302), routes (R310), stops (R313), and packets discarded
(R303, R309).
-/
namespace Sys2Proof.Machine

/-- CHN_PORTc of a port: its die and port address. -/
def chnDie (p : PortId) : DieId := newtDie (portNewt p)
def chnReg (p : PortId) : Nat := 0x5810 + 8 * (p.val % 2)
/-- CHN_PORTc. -/
def State.chnPort (s : State) (p : PortId) : Word := s.dGet (chnDie p) (chnReg p)
/-- Lane rate of a multiplier in bit/s, and whether it lies in 10.0 to 56.0 Gb/s (R301). -/
def State.chainRate (s : State) (mult : Nat) : Nat := 2 * mult * s.refHz
def State.chainRateOk (s : State) (mult : Nat) : Bool :=
  decide (10000000000 ≤ s.chainRate mult) && decide (s.chainRate mult ≤ 56000000000)

/-- The time-tree unit of a port is freed when the port is disabled (R241, R409). -/
def State.ttFree (s : State) (p : PortId) : State :=
  match s.ports[p].ttUnit with
  | some k => (s.capFreeUnit (portNewt p) k).modPort p fun x => { x with ttUnit := none }
  | none => s
/-- The time tree takes the lowest free unit for a port that comes up (R241). -/
def State.ttTake (s : State) (p : PortId) : State :=
  if s.ports[p].ttUnit.isSome then s
  else match s.capFree (portNewt p) with
    | some k => (s.capTake (portNewt p) k .timeTree .T).modPort p fun x => { x with ttUnit := some k }
    | none => s

/-- The packets that the last port down event has lost leave again, in order: the newest of the replay buffer, and how many of
them is open (R309; log 85). -/
def State.resend (s : State) (p : PortId) : State :=
  let l := s.ports[p].replay
  if l.isEmpty then s
  else s.draw.modPort p fun x => { x with tx := x.tx ++ l.drop ((Config.freeWord s.freeCtr).toNat % (l.length + 1)) }
/-- A port goes up or down: the lane event on every change (R301). -/
def State.portUp (s : State) (p : PortId) : State :=
  (((s.modPort p fun x => { x with up := true, down := false, child := false }).lineT 1).ttTake p).resend p
def State.portDown (s : State) (p : PortId) (retry : Bool) : State :=
  let s' := s.modPort p fun x => { x with up := false, down := retry, child := false }
  if s.ports[p].up then s'.lineT 1 else s'

/-- A write of CHN_PORTc (R301): MULT only while EN = 0; EN stays 0 for a rate outside the limits. -/
def State.chnPortWrite (s : State) (p : PortId) (v : Word) : State :=
  let old := s.chnPort p
  let on := bitOf old 31
  let mult := if on then fld old 25 16 else fld v 25 16
  let bad := if on then fld v 25 16 ≠ fld old 25 16 else bitOf v 31 && !(s.chainRateOk mult)
  let en := bitOf v 31 && (on || s.chainRateOk mult)
  let err := bad || (bitOf old 30 && !(bitOf v 30))
  let s := s.dPut (chnDie p) (chnReg p) (at32 31 (b2n en) ||| at32 30 (b2n err) ||| at32 16 mult ||| at32 0 (fld v 11 0))
  if on && !en then (s.portDown p false).ttFree p else s

/-- The four lanes of an enabled port have trained (R301). -/
def State.chainUp (s : State) (p : PortId) : State :=
  if bitOf (s.chnPort p) 31 && !s.ports[p].up then s.portUp p else s
/-- A lane of a port is lost, or does not train: the port is down and retries every 10 ms. -/
def State.chainDown (s : State) (p : PortId) : State :=
  if bitOf (s.chnPort p) 31 then s.portDown p true else s
/-- A down port trains again. -/
def State.chainRetry (s : State) (p : PortId) : State :=
  if bitOf (s.chnPort p) 31 && s.ports[p].down then s.modPort p fun x => { x with down := false } else s

/-- CHN_STAT.UP (R301). -/
def State.chainUpBits (s : State) : Nat :=
  sumNat ((List.finRange 4).map fun p => if s.ports[p].up then 2 ^ p.val else 0)
/-- Set a bit of CHN_STAT: 13 BADPKT, 12 STOP_RX, 8 + p CRCERR, 4 + p VC1LATE. -/
def State.chnFlag (s : State) (bit : Nat) : State := s.n0Mod 0x5808 (setBit · bit true)

/-- A packet of VC0 arrives under its command: one of its kind and form takes effect; a reserved TYPE, another channel or more
than 64 bytes discards it (R303, R306, Table 10-8). A bad CRC is the sender's to send again (R309). -/
def State.vc0In (s : State) (p : PortId) (k : Packet) (kind : Nat) (f : State → State) : State :=
  if !(pktGood k && s.ports[p].up) then s
  else if 9 ≤ k.kind.toNat then s.chnFlag 13
  else if k.kind.toNat ≠ kind then s
  else if k.vc ≠ 0 || k.tok.isSome || decide (11 < k.len.toNat) || k.len.toNat ≠ k.data.length then s.chnFlag 13
  else f s

/-! ## Device ids (R302) -/

/-- A write of CHN_ID: the id while SET = 0. -/
def State.chnIdWrite (s : State) (v : Word) : State :=
  if bitOf (s.n0 0x5800) 31 then s else s.n0Put 0x5800 (at32 31 1 ||| at32 0 (fld v 8 0))
/-- A write of CHN_CTL: SEND sends a SETID on PORT. -/
def State.chnCtlWrite (s : State) (v : Word) : State :=
  let s := s.n0Put 0x5804 (v &&& 0x31FF0001#32)
  let p : PortId := ⟨fld v 29 28 % 4, by omega⟩
  if bitOf v 31 && s.ports[p].up then s.sendPkt p (s.vc0 8 [BitVec.ofNat 32 (fld v 24 16)]) else s
/-- A SETID packet: the id while SET = 0, else BADPKT. -/
def State.setid (s : State) (k : Packet) : State :=
  if bitOf (s.n0 0x5800) 31 then s.chnFlag 13
  else match k.data with
    | [w] => s.n0Put 0x5800 (at32 31 1 ||| at32 0 (fld w 8 0))
    | _ => s.chnFlag 13

/-! ## Routes (R310) -/

/-- The port that CHN_RT names for a device id; none for 0xF and the reserved values. -/
def State.chainRoute (s : State) (dev : Nat) : Option PortId :=
  let v := fld (s.n0 (0x5900 + 4 * (dev / 8))) (4 * (dev % 8) + 3) (4 * (dev % 8))
  if h : v < 4 then some ⟨v, h⟩ else none
/-- The up port towards a device (R305, status 3 where there is none). -/
def State.chainHop (s : State) (dev : Nat) : Option PortId :=
  match s.chainRoute dev with
  | some p => if s.ports[p].up then some p else none
  | none => none

/-! ## Stops (R313) -/

/-- A STOP packet of this package, with a fresh stop number. -/
def State.ownStop (s : State) : State :=
  let n := s.stopNo
  let s := { s with stopNo := (n + 1) % 65536, stops := ((s.devId, n) :: s.stops).take 8 }
  s.floodPkt (fun p => s.ports[p].up) (s.vc0 7 [BitVec.ofNat 32 s.devId, BitVec.ofNat 32 n])
/-- A STOP packet takes effect, and travels on where its pair is not among the last 8; one that reaches 255 hops is discarded
(R303). -/
def State.stopRx (s : State) (p : PortId) (k : Packet) : State :=
  if 254 ≤ k.hops.toNat then s.chnFlag 13
  else
    let id := (fld (k.data.getD 0 0) 8 0, fld (k.data.getD 1 0) 15 0)
    let s' := if s.stops.contains id then s
      else { s with stops := (id :: s.stops).take 8 }.floodPkt (fun q => s.ports[q].up && q ≠ p)
        (sealPkt { k with hops := k.hops + 1 })
    (s'.stopAll.chnFlag 12).faultMsi s
/-- HALT_N low for 2 reference periods, or high again; without effect while the package is in reset (R440, R442). -/
def State.haltPin (s : State) (low : Bool) : State :=
  let s := { s with pins := { s.pins with halt := !low } }
  if low && !s.inReset then
    let s := s.stopAll.chnFlag 12
    if bitOf (s.n0 0x5804) 0 then s.ownStop else s
  else s

end Sys2Proof.Machine
end

