-- ==== Sys2Proof/Machine/Place.lean ====
section
/-!
DEFINITION. Machine/Place.lean: the local address map (R25 to R29, R252, R456), and the default routes between dies (R21, R22).
-/
namespace Sys2Proof.Machine

/-! ## The local map (Table 1-4) -/

/-- Where the bytes [x, x + n) of the local space lead; each is one target of R317. -/
inductive Place where
  | pool (g : GeckoId) (bank : Nat)
  | spad (e : EngineId)
  | pat (g : GeckoId)
  | hit (g : GeckoId)
  | reg (t : Target)
  | rom
  | cal
deriving DecidableEq, Repr

/-- The register that an alias access reaches: its first byte and its whole width, else none (R27, R454). A masked vector access is 16
bytes wide here, also where its mask selects just the bytes of one register: R27 and R146 do not say how wide it is (DESIGN CHOICE,
log 104). -/
def aliasPlace (x n : Nat) : Option Place :=
  let reg (t : Target) : Option Place :=
    match targetInfo t with
    | some r => if r.width = n then some (.reg t) else none
    | none => none
  if h : 0x18000000 ≤ x ∧ x < 0x18640000 then
    let e : EngineId := ⟨(x - 0x18000000) / 0x10000, by omega⟩
    let p := x % 0x10000
    if within p 0x100 0x11F then reg (.die (decNewt (p - 0x100)) p)
    else if p < 0x2000 then reg (.io e p) else none
  else if h : 0x1C000000 ≤ x ∧ x < 0x20000000 then
    let d : DieId := ⟨(x - 0x1C000000) / 0x800000, by omega⟩
    if x % 0x800000 < 0x10000 then reg (.die d (x % 0x800000)) else none
  else none

/-- The target of [x, x + n); none for a reserved range and where the bytes run out of a target (R25, R317). -/
def place (x n : Nat) : Option Place :=
  let same (size : Nat) : Bool := x / size == (x + n - 1) / size
  if n = 0 then none
  else if h : x < 0x0C000000 then
    (if same 0x200000 then some (.pool ⟨x / 0x2000000, by omega⟩ (x / 0x200000 % 16)) else none)
  else if within x 0x10000000 0x118FFFFF then
    (if same 0x40000 then (spadEngine x).map .spad else none)
  else if h : 0x14000000 ≤ x ∧ x < 0x17000000 then
    let g : GeckoId := ⟨(x - 0x14000000) / 0x800000, by omega⟩
    let o := x % 0x800000
    if o + n ≤ 0x100000 then some (.pat g)
    else if 0x400000 ≤ o ∧ o + n ≤ 0x400020 then some (.hit g) else none
  else if within x 0x20000000 0x2003FFFF then (if x + n ≤ 0x20040000 then some .rom else none)
  else if within x 0x21000000 0x2103FFFF then (if x + n ≤ 0x21040000 then some .cal else none)
  else aliasPlace x n

/-- Die and target port of a place (Table 8-5). -/
def placePort : Place → DieId × Nat
  | .pool g b => (geckoDie g, b)
  | .spad e => (engDie e, 0x10 + engIndex e)
  | .pat g => (geckoDie g, 0x21)
  | .hit g => (geckoDie g, 0x20)
  | .reg (.io e _) => (engDie e, 0x10 + engIndex e)
  | .reg (.die d _) => (d, 0x2F)
  | .reg (.bar0 _) => (newt0, 0x2F)
  | .rom | .cal => (newt0, 0x2F)

/-- Whether a fabric address is of this package (R23). -/
def State.isLocal (s : State) (fa : Nat) : Bool := fa / 2 ^ 31 == s.devId

/-! ## Default routes (R22) -/

/-- The die-to-die ports that the default route from die a to die b leaves by (Tables 1-2 and 1-3). -/
def routeHops (a b : DieId) : List (DieId × Fin 6) :=
  if a = b then []
  else if !isGecko a && isGecko b then [(a, ⟨b.val % 6, by omega⟩)]
  else if isGecko a && !isGecko b then [(a, ⟨(b.val - 6) % 6, by omega⟩)]
  else if !isGecko a then [(a, 0), (0, ⟨(b.val - 6) % 6, by omega⟩)]
  else
    let up (d : Nat) : DieId × Fin 6 := (⟨d % 6, by omega⟩, 2)
    let dn (d : Nat) : DieId × Fin 6 := (⟨d % 6, by omega⟩, 3)
    match (b.val + 6 - a.val) % 6 with
    | 1 => [up a.val]
    | 2 => [up a.val, up (a.val + 1)]
    | 4 => [dn a.val, dn (a.val + 5)]
    | 5 => [dn a.val]
    | _ => [(a, ⟨a.val % 2, by omega⟩), (newtDie ⟨a.val % 2, by omega⟩, ⟨b.val % 6, by omega⟩)]
/-- The die and port at the far end of a die-to-die port (Table 1-2). -/
def farEnd (d : DieId) (p : Fin 6) : DieId × Fin 6 :=
  if !(isGecko d) then (⟨p.val, by omega⟩, ⟨d.val - 6, by omega⟩)
  else match p with
    | 0 => (6, ⟨d.val % 6, by omega⟩)
    | 1 => (7, ⟨d.val % 6, by omega⟩)
    | 2 => (⟨(d.val + 1) % 6, by omega⟩, 3)
    | _ => (⟨(d.val + 5) % 6, by omega⟩, 2)
/-- A die-to-die link is down where either of its ends is (R327). -/
def State.linkDown (s : State) (d : DieId) (p : Fin 6) : Bool :=
  let f := farEnd d p
  (s.die d).d2d[p].down || (s.die f.1).d2d[f.2].down
/-- A link of the default route is down (R22, R327). -/
def State.routeDown (s : State) (a b : DieId) : Bool := (routeHops a b).any fun h => s.linkDown h.1 h.2

/-- The target ports of the default route from die a to target port t of die d: outbound die-to-die ports, then the target's
(Table 8-5, R322). -/
def portsTo (a d : DieId) (t : Nat) : List (DieId × Nat) := (routeHops a d).map (fun h => (h.1, 0x28 + h.2.val)) ++ [(d, t)]
/-- The master id of traffic that has left through target port t of die d, at the die where it arrives (Table 8-4). -/
def viaOf (d : DieId) (t : Nat) : Option Nat :=
  if h : 0x28 ≤ t ∧ t < 0x2E then some (0xA0 + (farEnd d ⟨t - 0x28, by omega⟩).2.val) else none

end Sys2Proof.Machine
end

