-- ==== Sys2Proof/Machine/Queue.lean ====
section
/-!
DEFINITION. Machine/Queue.lean: engine input queues (R295, R296): pushes, held pushes and reads.
-/
namespace Sys2Proof.Machine

/-- The outstanding request of a channel is answered; one that an ABORT has left just ends (R328). The next request leaves no earlier
than in the next fabric cycle (R318). -/
def Dma.answered (x : Dma) (r : Resp) (now : Nat) : Dma :=
  { x with next := now + 1, out := match x.out with | some q => if q.drop then none else some { q with resp := some r } | none => none }
/-- The answer to the outstanding fabric transaction of an engine. -/
def Engine.answeredBy (g : Engine) (r : Resp) (now : Nat) : Engine :=
  match g.fabOut with
  | some f => { g with fabOut := some { f with resp := some r }, fabNext := now + 1 }
  | none => g
/-- The answer to the outstanding fabric transaction of the master that waits at a target, if one does. -/
def State.fabDone (s : State) (who : Option Waiter) (r : Resp) : State :=
  match who with
  | none => s
  | some (.engine e) => s.modEng e (·.answeredBy r s.fc)
  | some (.channel c) => s.modDma c (·.answered r s.fc)
  | some (.outer _) => s

/-- Whether a queue of 64 words has room. -/
def Engine.iqFits (g : Engine) (q : Fin 16) (n : Nat) : Bool := g.iq[q].length + n ≤ 64

/-- The queue with words added behind. -/
def Engine.iqAppend (g : Engine) (q : Fin 16) (ws : List Word) : Engine :=
  { g with iq := g.iq.set q (g.iq[q] ++ ws) }

/-- IQ_STAT.HOLD of a queue. -/
def Engine.iqHold (g : Engine) (q : Fin 16) : Engine := g.ioPut 0x80 (setBit (g.ioGet 0x80) (16 + q) true)
/-- A push to queue q: taken, or held at the engine's target port, where it holds every later write (R295, R296). The Bool
says whether it was taken. -/
def State.iqSend (s : State) (e : EngineId) (q : Fin 16) (ws : List Word) (who : Option Waiter) (road : Bool := false) :
    State × Bool :=
  let g := s.eng e
  if g.iqHeld.isEmpty && g.iqFits q ws.length then (s.modEng e (·.iqAppend q ws), true)
  else
    let g' := if g.iqFits q ws.length then g else g.iqHold q
    (s.modEng e fun _ => { g' with iqHeld := g'.iqHeld ++ [{ queue := q, words := ws, who := who, road := road }] }, false)

/-- Held pushes enter their queues in order as long as the first of them fits; each answers its writer. The first that finds its
queue full sets HOLD for it. -/
def iqRelease : List HeldPush → State → EngineId → State
  | [], s, e => s.modEng e fun g => { g with iqHeld := [] }
  | h :: hs, s, e =>
    if (s.eng e).iqFits h.queue h.words.length then
      iqRelease hs ((s.modEng e (·.iqAppend h.queue h.words)).fabDone h.who (.ok 0)) e
    else s.modEng e fun g => { g.iqHold h.queue with iqHeld := h :: hs }

/-- A read of the oldest word of queue q: 0 and UNDER where it is empty (R296). -/
def State.iqTake (s : State) (e : EngineId) (q : Fin 16) : Word × State :=
  match (s.eng e).iq[q] with
  | [] => (0, s.modEng e fun g => g.ioPut 0x80 (setBit (g.ioGet 0x80) q true))
  | w :: ws =>
    let s' := s.modEng e fun g => { g with iq := g.iq.set q ws }
    (w, iqRelease (s'.eng e).iqHeld s' e)

/-- A `pio` `out` to the own queue: a word that finds the queue full is lost and IQ_DROP set (R296). -/
def State.iqOut (s : State) (e : EngineId) (q : Fin 16) (w : Word) : State :=
  if (s.eng e).iqFits q 1 then s.modEng e (·.iqAppend q [w])
  else s.modEng e fun g => g.ioPut 0x84 (setBit (g.ioGet 0x84) q true)

/-- The eight words of 32 bytes, lowest first. -/
def words8 (x : W256) : List Word := (List.range 8).map fun i => (x >>> (32 * i)).setWidth 32

end Sys2Proof.Machine
end

