-- ==== Sys2Proof/Machine/Slots.lean ====
section
/-!
DEFINITION. Machine/Slots.lean: slot tables (R244, R245), the engine map (R427) and the arbitration of a target port (R319 to
R322).
-/
namespace Sys2Proof.Machine

/-- Set SLOT_CTL.WERR. -/
def State.slotErr (s : State) (d : DieId) : State := s.dMod d 0x5600 (setBit · 2 true)

/-- SLOT_CTL as read. -/
def State.slotCtlWord (s : State) (d : DieId) : Word := setBit (s.dGet d 0x5600) 0 (s.die d).active

/-- A write of a slot-table entry: inactive bank and the holder's world only, else WERR (R245, R410). -/
def State.slotWrite (s : State) (a : Access) (d : DieId) (p : Nat) (v : Word) : State :=
  let (b, t, _) := slotPort p
  if b == b2n (s.die d).active || !(s.holds a d t) then s.slotErr d else s.dPut d p (v &&& 0x80FF#32)

/-- A write of ENG_MAPb_k: inactive bank only, else WERR (R427). -/
def State.engMapWrite (s : State) (d : DieId) (p : Nat) (v : Word) : State :=
  if (p - 0x7D40) / 8 == b2n (s.die d).active then s.slotErr d else s.dPut d p v

/-- The row of the slot table that governs target port t of die d: engine target ports are named by logical engines (R427). -/
def State.slotRow (s : State) (d : DieId) (t : Nat) : Option Nat :=
  if within t 0x10 0x1F then
    ((List.range 16).find? fun j => (s.physEng d j).map engIndex == some (t - 0x10)).map (0x10 + ·)
  else some t
/-- Entry i of target port t in the bank in use. -/
def State.slotEntry (s : State) (d : DieId) (t i : Nat) : Word :=
  match s.slotRow d t with
  | some r => s.dGet d (0x8000 + 0x4000 * b2n (s.die d).active + 0x100 * r + 2 * i)
  | none => 0

/-- Whether reserved entries apply on a die: EN, outside MD0 and MD1 (Table 14-2, SLOT_CTL). -/
def State.slotsApply (s : State) (d : DieId) : Bool :=
  bitOf (s.dGet d 0x5600) 1 && (s.die d).mode ≠ 0 && (s.die d).mode ≠ 1

/-- Physical master that an id names at die d: engine numbers are logical (R427). -/
def State.masterPhys (s : State) (id : Nat) : Nat :=
  if id < 100 then (match s.physOf id with | some e => e.val | none => 0xFF) else id

/-- Whether R321 turns an entry off: it names a Host-service engine, or a channel of a Host-service context. -/
def State.slotHost (s : State) (m : Nat) : Bool :=
  if h : m < 100 then s.world ⟨m, h⟩ = .H
  else if h : m - 100 < 56 then s.ctxWorld (chanDie ⟨m - 100, h⟩) s.dma[m - 100].context = .H
  else false

/-- The physical master for which target port t of die d reserves fc i of a frame (R244, R319, R321). -/
def State.reservedAt (s : State) (d : DieId) (t i : Nat) : Option Nat :=
  let e := s.slotEntry d t i
  let m := s.masterPhys (fld e 7 0)
  if s.slotsApply d && decide (i < 120) && bitOf e 15 && !(s.slotHost m) then some m else none
/-- The physical master for which target port t of die d reserves the present fc. -/
def State.reservedFor (s : State) (d : DieId) (t : Nat) : Option Nat := s.reservedAt d t s.frameFc

/-- QoS of an engine's transactions, clamped to its world (R320). -/
def State.engQos (s : State) (e : EngineId) : Nat :=
  let q := fld (s.ioGet e 0x8A8) 3 0
  match s.world e with | .T => max 8 q | .H => min 11 q

/-- QoS of a channel's transactions: that of its descriptor, 0 before it has one, clamped to its context's world (R320; log 83). -/
def State.dmaQos (s : State) (c : ChanId) : Nat :=
  let q := match s.dma[c].now with | some d => d.qos | none => 0
  match s.ctxWorld (chanDie c) s.dma[c].context with | .T => max 8 q | .H => min 11 q

/-- A request at a target port: its requester's id, its QoS, and the id of the die-to-die port by which it has arrived. -/
structure Ask where
  master : Nat
  qos    : Nat
  via    : Option Nat
deriving DecidableEq, Repr
/-- An entry that names m is for this request at target port t: it names the requester, or at an outbound die-to-die port the port
of arrival (R322). -/
def Ask.named (a : Ask) (t m : Nat) : Bool := a.master == m || (within t 0x28 0x2D && a.via == some m)

/-- Round-robin: the first of the waiting masters after the last winner (R319). -/
def roundRobin (l : List Nat) (last : Nat) : Option Nat :=
  let l := l.mergeSort (· ≤ ·)
  (l.find? (fun m => decide (last < m))).or l.head?

/-- The waiting request that wins by QoS and round-robin, and the state with the winner recorded (R319 steps 2 and 3). -/
def State.arbQos (s : State) (d : DieId) (t : Nat) (waiting : List Ask) : Option Ask × State :=
  let q := waiting.foldl (fun m p => max m p.qos) 0
  let best := waiting.filter (·.qos == q)
  match roundRobin (best.map (·.master)) (smGet (fun _ => 0) (s.die d).lastWin (16 * t + q)) with
  | some m =>
    (best.find? (·.master == m), s.modDie d fun x => { x with lastWin := smPut (fun _ => 0) x.lastWin (16 * t + q) m })
  | none => (none, s)

/-- The request that wins the present fc among those waiting, and whether a reserved entry is for it (R319). -/
def State.arbitrate (s : State) (d : DieId) (t : Nat) (waiting : List Ask) : Option (Ask × Bool) × State :=
  match (s.reservedFor d t).bind fun m => waiting.find? (·.named t m) with
  | some a => (some (a, true), s)
  | none => match s.arbQos d t waiting with
    | (some a, s) => (some (a, false), s)
    | (none, s) => (none, s)

end Sys2Proof.Machine
end

