-- ==== Sys2Proof/Machine/Ports.lean ====
section
/-!
DEFINITION. Machine/Ports.lean: the requests that wait at target ports, the grant of one of them in an fc, and their way along
their route (R292, R317 to R322, R326, R329).
-/
namespace Sys2Proof.Machine

/-! ## Where requests go -/

/-- The chain transmit target port of a port: die and number (Table 8-5). -/
def txPort (p : PortId) : DieId × Nat := (newtDie (portNewt p), 0x30 + p.val % 2)
/-- Die and target port that a request of n bytes at a fabric address goes to: for another package the transmit port of its chain
port; Newt 0's registers where the address leads nowhere. -/
def State.portFor (s : State) (fa n : Nat) : DieId × Nat :=
  if s.isLocal fa then (match place (fa % 2 ^ 31) n with | some pl => placePort pl | none => (newt0, 0x2F))
  else match s.chainHop (fa / 2 ^ 31) with
    | some p => txPort p
    | none => (newt0, 0x30)
/-- The way of such a request from die a. -/
def State.wayTo (s : State) (a : DieId) (fa n : Nat) : List (DieId × Nat) :=
  let p := s.portFor fa n
  portsTo a p.1 p.2
/-- The answer to a request as it reaches die a: its way back is a route of its own, and a down link on it is a bus error (R22,
R327). -/
def State.returned (s : State) (a : DieId) (fa n : Nat) (r : Resp) : Resp :=
  if s.routeDown (s.portFor fa n).1 a then .bus 1 else r
/-- A die-to-die link on that way is down. -/
def State.wayDown (s : State) (a : DieId) (fa n : Nat) : Bool := s.routeDown a (s.portFor fa n).1

/-- The held writes at an engine's target port that stop a write there (R179, R295, R296); words for queues wait in their own order,
and so do those for ENG_ILDATA, but behind a held push. -/
def stopsReg (p : Nat) : Behind := if within p 0x40 0x7C then .nothing else if p = 0x824 then .pushes else .any
def State.stopsAt (s : State) (fa n : Nat) (wr : Bool) : Behind :=
  if wr && s.isLocal fa then
    match place (fa % 2 ^ 31) n with
    | some (.spad _) => .any
    | some (.reg (.io _ p)) => stopsReg p
    | _ => .nothing
  else .nothing
/-- Engine g's target port holds such a write. -/
def Engine.shut (g : Engine) : Behind → Bool
  | .nothing => false
  | .pushes => !g.iqHeld.isEmpty
  | .any => !g.iqHeld.isEmpty || !g.ilHeld.isEmpty

/-! ## Who waits at a port -/

/-- The first request of engine e, while none is outstanding, from the fc after the last response on (R318). -/
def State.engBeat (s : State) (e : EngineId) : Option Beat :=
  match (s.eng e).fabQ, (s.eng e).fabOut with
  | (r, _) :: _, none =>
    if s.fc < (s.eng e).fabNext then none
    else
      some { master := e.val, qos := s.engQos e, behind := s.stopsAt r.addr r.len r.write,
             route := s.wayTo (engDie e) r.addr r.len, use := .engine e }
  | _, _ => none

/-- Die and target port of a group's destination; none where it names no engine or no Pool bank. -/
def State.groupPort (s : State) (g : Group) : Option (DieId × Nat) :=
  match g.kind with
  | 1 => (s.physOf g.target).map fun e => placePort (.spad e)
  | 2 => if h : g.target < 6 then some (placePort (.hit ⟨g.target, h⟩)) else none
  | _ => (place g.target 32).map placePort
/-- A group of the routing unit of Newt n as a request (R320). -/
def State.groupBeat (s : State) (n : Fin 2) (g : Group) : Option Beat :=
  (s.groupPort g).map fun p =>
    { master := 0xB0 + n.val, qos := 15, route := portsTo (newtDie n) p.1 p.2, use := .group g }
/-- A group may wait at its first target port in the present fc: one of a scheduled route only in a slot that the port reserves
for the unit (R292). -/
def State.groupMay (s : State) (n : Fin 2) (g : Group) : Bool :=
  match s.groupBeat n g with
  | some b => !g.sched || (match b.route with | (d, t) :: _ => s.reservedFor d t = some (0xB0 + n.val) | [] => true)
  | none => true
/-- The group that the unit of Newt n has at a target port: the oldest one for that port (R292). -/
def State.unitBeat (s : State) (n : Fin 2) (d : DieId) (t : Nat) : Option Beat :=
  ((s.groups[n].filterMap fun g => if s.groupMay n g then s.groupBeat n g else none).find? fun b => b.route.head? == some (d, t))

/-- A block that the link to die d by port p lost has not come yet: what follows it waits (R324). -/
def State.linkWaits (s : State) (d : DieId) (via : Option Nat) : Bool :=
  match via with
  | some v => if h : v - 0xA0 < 6 then (s.die d).d2d[v - 0xA0].waiting else false
  | none => false
/-- Target port t of die d is an engine's and holds such a write (R179, R295). -/
def State.portShut (s : State) (d : DieId) (t : Nat) (b : Behind) : Bool :=
  within t 0x10 0x1F && (match engOf d (t - 0x10) with
    | some e => (s.eng e).shut b
    | none => false)
/-- A request stands at target port t of die d and may be granted there. -/
def Beat.waits (b : Beat) (s : State) (d : DieId) (t : Nat) : Bool :=
  b.route.head? == some (d, t) && !(s.linkWaits d b.via) && !(s.portShut d t b.behind)
/-- Every request that waits at target port t of die d. -/
def State.portBeats (s : State) (d : DieId) (t : Nat) : List Beat :=
  ((List.finRange 100).filterMap s.engBeat ++ (List.finRange 2).filterMap (s.unitBeat · d t) ++ s.beats).filter (·.waits s d t)

/-! ## Grants -/

def Beat.ask (b : Beat) : Ask := { master := b.master, qos := b.qos, via := b.via }
/-- The grant of target port t of die d in the present fc, among the requests that wait there and those in `extra`; whether a
reserved entry gave it. A port grants once in an fc (R317, R319). -/
def State.portPick (s : State) (d : DieId) (t : Nat) (extra : List Beat) : Option (Beat × Bool) × State :=
  if smGet (fun _ => 0) (s.die d).granted t = s.fc + 1 then (none, s)
  else
    let l := s.portBeats d t ++ extra.filter (·.waits s d t)
    match s.arbitrate d t (l.map (·.ask)) with
    | (some (a, r), s) =>
      ((l.find? fun b => b.ask = a).map fun b => (b, r),
       s.modDie d fun x => { x with granted := smPut (fun _ => 0) x.granted t (s.fc + 1) })
    | (none, s) => (none, s)

/-- A request leaves a target port that has granted it. -/
def State.leave (s : State) (d : DieId) (t : Nat) (b : Beat) (byEntry : Bool) : Beat :=
  { b with route := b.route.tail, via := viaOf d t, sched := b.sched || byEntry, since := s.fc }
/-- A request that a lost block has delayed has missed a reserved entry at the port where it waits: one that names it lies between
the fabric cycle of its arrival and the present one (R323, R326). -/
def State.missed (s : State) (b : Beat) : Bool :=
  match b.route with
  | (d, t) :: _ =>
    let frame := 4 * s.kF
    b.sched && (List.range (min frame (s.fc - b.since))).any fun j =>
      (s.reservedAt d t ((s.frameFc + frame - 1 - j) % frame)).any (b.ask.named t)
  | [] => false
/-- The good copy of a lost block has come on port p of die d: the requests that waited for it and have missed their entry go on with
QoS 15, and D2D_STAT.LATE counts each (R326). -/
def State.lateBeats (s : State) (d : DieId) (p : Fin 6) : State :=
  let late (b : Beat) : Bool := (b.route.head?.any fun q => q.1 = d) && b.via == some (0xA0 + p.val) && s.missed b
  let n := (s.beats.filter late).length
  let s := { s with beats := s.beats.map fun b => if late b then { b with qos := 15 } else b }
  if n = 0 then s else s.dMod d 0x7510 (bumpFld · 15 8 n)
/-- A request goes on along the target ports of its route as far as each grants it in the present fc. The 24 fc of a hop and the
beats of a burst are timing (log 84). -/
def goOn : List (DieId × Nat) → State → Beat → Beat × State
  | [], s, b => (b, s)
  | (d, t) :: rest, s, b =>
    match s.portPick d t [b] with
    | (some (w, r), s') => if w = b then goOn rest s' (s'.leave d t b r) else (b, s)
    | (none, _) => (b, s)
/-- A request enters the fabric: whether it has reached its target; else it waits on its way. -/
def State.sendBeat (s : State) (b : Beat) : Bool × State :=
  let b := { b with since := s.fc }
  match goOn b.route s b with
  | ({ route := [], .. }, s) => (true, s)
  | (b, s) => (false, { s with beats := s.beats ++ [b] })

end Sys2Proof.Machine
end

