-- ==== Sys2Proof/Machine/DmaCtl.lean ====
section
/-!
DEFINITION. Machine/DmaCtl.lean: the registers of DMA channels and contexts and the IOMMU (R334 to R336, R341 to R343), and
the translation buffers' invalidation (R333).
-/
namespace Sys2Proof.Machine

/-- DMA_PAUSE bit of a channel. -/
def State.dmaPaused (s : State) (c : ChanId) : Bool := bitOf (s.dGet (chanDie c) 0x7500) (chanLocal c)
/-- Whether a context takes fabric addresses (DMA_CTX.PHYS). -/
def State.ctxPhys (s : State) (d : DieId) (n : Nat) : Bool := bitOf (s.dGet d (0x7800 + 8 * n)) 29

def dmaStCode : DmaSt → Nat
  | .idle => 0 | .running => 1 | .paused => 2 | .stopped => 3

/-- DMA_STAT as read: FAHI belongs to a context with PHYS = 1. -/
def State.dmaStat (s : State) (c : ChanId) : Word :=
  let x := s.dma[c]
  at32 28 (dmaStCode x.st) ||| at32 24 x.status |||
    at32 16 (if s.ctxPhys (chanDie c) x.context then x.faddr / 2 ^ 32 % 256 else 0) ||| at32 0 (b2n x.hbErr)

/-- Reset of a channel by ABORT (R328): state 0, status 8. An outstanding request completes without effect, and no other leaves
before. -/
def State.dmaAbort (s : State) (c : ChanId) : State :=
  s.modDma c fun x => { x with
    st := .idle, status := 8, now := none, xfer := none, tables := []
    out := match x.out with | some q => if q.resp.isSome then none else some { q with drop := true } | none => none }

/-- RESUME: ignored unless the channel is stopped; paused where its pause bit is 1 (R341, R342). -/
def State.dmaResume (s : State) (c : ChanId) : State :=
  if s.dma[c].st = .stopped then
    s.modDma c fun x => { x with st := if s.dmaPaused c then .paused else .running }
  else s

/-- GO: status 7 where R343 refuses it, else the chain starts at DMA_DESC. -/
def State.dmaGo (s : State) (a : Access) (c : ChanId) : State :=
  let d := chanDie c
  let x := s.dma[c]
  if x.st ≠ .idle || !(bitOf (s.dGet d (0x7800 + 8 * x.ctx)) 31) ||
      !(a.sup && (a.world = s.ctxWorld d x.ctx || a.root)) || !(s.holds a d (0x60 + chanLocal c)) then
    s.modDma c fun x => { x with status := 7 }
  else
    s.modDma c fun x => { x with
      st := if s.dmaPaused c then .paused else .running, progress := 0, cur := x.desc, now := none, tables := [] }

/-- A write of DMA_CTRL. -/
def State.dmaCtrl (s : State) (a : Access) (c : ChanId) (v : Word) : State :=
  let s := if s.dma[c].st = .running then s else s.modDma c fun x => { x with ctx := fld v 5 0 }
  if bitOf v 29 then s.dmaAbort c
  else
    let s := if bitOf v 30 then s.dmaResume c else s
    if bitOf v 31 then s.dmaGo a c else s

/-- A write of DMA_DESC, ignored while the channel runs (R343). -/
def State.dmaDesc (s : State) (c : ChanId) (v : Word) : State :=
  if s.dma[c].st = .running then s else s.modDma c fun x => { x with desc := v &&& 0xFFFFFFE0#32 }

/-- A write of DMA_PAUSE: only bits of channels whose claim the writer's world holds change (R342). -/
def State.dmaPause (s : State) (a : Access) (d : DieId) (v : Word) : State :=
  forAll (List.range 8) s fun k t =>
    match chanOf d k with
    | some c =>
      if t.holds a d (0x60 + k) then
        let t := t.dMod d 0x7500 (setBit · k (bitOf v k))
        if bitOf v k then 
          (if t.dma[c].st = .running && t.dma[c].xfer.isNone then t.modDma c fun x => { x with st := .paused } else t)
        else (if t.dma[c].st = .paused then t.modDma c fun x => { x with st := .running } else t)
      else t
    | none => t

/-- A write of a DMA_CTX entry is accepted (R335): its world and engine, no channel in use, and PHYS. -/
def State.ctxOk (s : State) (a : Access) (d : DieId) (n : Nat) (w0 : Word) : Bool :=
  let w : World := if bitOf w0 30 then .H else .T
  let e := fld w0 6 0
  a.sup && (a.world = w || a.root) &&
    (if h : e < 100 then s.world ⟨e, h⟩ = w else false) &&
    (List.range 8).all (fun k => match chanOf d k with
      | some c => !(s.dma[c].st ≠ .idle && s.dma[c].context == n)
      | none => true) &&
    (!(bitOf w0 29) || a.host || a.world = .H)

/-- A write of word w of DMA_CTXn (R335). -/
def State.ctxWrite (s : State) (a : Access) (d : DieId) (n w : Nat) (v : Word) : State :=
  let p := 0x7800 + 8 * n
  let w0 := if w = 0 then v &&& 0xE000007F#32 else s.dGet d p
  if s.ctxOk a d n w0 then s.dPut d (p + 4 * w) (if w = 0 then w0 else v &&& 0x07FFFFFF#32)
  else s.dMod d 0x7504 (setBit · 10 true)

/-- IOMMU_INV as read. -/
def State.iommuWord (s : State) (d : DieId) : Word := s.dGet d 0x7504 ||| at32 11 (b2n (s.die d).inval.isSome)

/-- A write of IOMMU_INV: CTXERR is W1C; GO starts an invalidation unless one is in progress (R336). -/
def State.iommuWrite (s : State) (d : DieId) (v : Word) : State :=
  let s := if bitOf v 10 then s.dMod d 0x7504 (setBit · 10 false) else s
  if bitOf v 8 && (s.die d).inval.isNone then
    s.modDie d fun x => { x with inval := some { ctx := fld v 5 0, all := bitOf v 9, vpn := fld v 31 12 } }
  else s

/-- Whether a translation translates the page of a VPN. -/
def TlbEnt.covers (t : TlbEnt) (vpn : Nat) : Bool := if t.big then t.vpn / 1024 == vpn / 1024 else t.vpn == vpn

/-- A burst or a descriptor fetch of a channel that was translated under a context and touches the page (any, with `all`), or a page
of an entry that has been dropped. -/
def Dma.under (x : Dma) (i : IoInv) : Bool :=
  let hit (va : Nat) : Bool := va / 4096 == i.vpn || i.gone.any (·.covers (va / 4096))
  x.xfer.isSome && x.context == i.ctx && (i.all || x.xfer.any fun y => hit y.src.va || hit y.dst.va)
/-- The invalidation in progress drops its entries, and completes once no burst translated by one is in flight (R336). -/
def State.iommuDone (s : State) (d : DieId) : State :=
  match (s.die d).inval with
  | some i =>
    let drops (q : Nat × TlbEnt) : Bool := q.1 == i.ctx && (i.all || q.2.covers i.vpn)
    let i := { i with gone := i.gone ++ ((s.die d).iommu.filter drops).map (·.2) }
    let busy := (List.range 8).any fun k => match chanOf d k with | some c => (s.dma[c]).under i | none => false
    s.modDie d fun x => { x with
      iommu := x.iommu.filter (!drops ·), inval := if busy then some i else none }
  | none => s

end Sys2Proof.Machine
end

