-- ==== Sys2Proof/Machine/Ecc.lean ====
section
/-!
DEFINITION. Machine/Ecc.lean: error correction, error tracking and word retirement (R185 to R190), and the background memory
tester of a Gecko (R192 to R198).
-/
namespace Sys2Proof.Machine

/-! ## Banks of 64-bit words -/

/-- Keys of the banks that carry SECDED words. -/
def spadKey (e : EngineId) (bank : Nat) : Nat := 16 * e.val + bank
def imemKey (e : EngineId) (half : Nat) : Nat := 0x10000 + 2 * e.val + half
def poolKey (g bank : Nat) : Nat := 0x20000 + 16 * g + bank
def patKey (g : Nat) : Nat := 0x30000 + g
/-- Key of a word of a bank. -/
def wordKey (bank word : Nat) : Nat := bank * 2 ^ 20 + word

/-- MEM code of ECC_LOG: 0 data scratchpad, 1 instruction scratchpad, 2 Pool. -/
def keyMem (bank : Nat) : Nat := bank / 0x10000
/-- ENGINE and BANK fields of an event (ECC_LOG, RETIRE_STAT). -/
def keyEngine (bank : Nat) : Nat :=
  if bank < 0x10000 then bank / 16 else if bank < 0x20000 then (bank - 0x10000) / 2 else 0
def keyBank (bank : Nat) : Nat :=
  if bank < 0x10000 then bank % 16 else if bank < 0x20000 then bank % 2 else bank % 16
/-- The die of a bank. -/
def keyDie (bank : Nat) : DieId :=
  if bank < 0x20000 then engDie ⟨keyEngine bank % 100, by omega⟩
  else if bank < 0x30000 then ⟨(bank - 0x20000) / 16 % 8, by omega⟩ else ⟨(bank - 0x30000) % 8, by omega⟩
/-- Spare words of a bank (R188). -/
def keySpares (bank : Nat) : Nat := if keyMem bank = 2 then 64 else 8

/-- Error state of a word: 0 none. -/
def State.eccOf (s : State) (key : Nat) : Nat := smGet (fun _ => 0) s.ecc key
def State.setEcc (s : State) (key v : Nat) : State := { s with ecc := smPut (fun _ => 0) s.ecc key v }

/-- Log an event in ECC_LOG (pattern memory has no code there; FOX_ERR logs it, R270): the first since the last read; an uncorrectable one replaces a corrected one (R190). -/
def State.eccLog (s : State) (bank word : Nat) (ue : Bool) : State :=
  let d := keyDie bank
  let old := s.dGet d 0x4004
  if keyMem bank = 3 || (bitOf old 31 && !(ue && !(bitOf old 30))) then s
  else s.dPut d 0x4004 (at32 31 1 ||| at32 30 (b2n ue) ||| at32 28 (keyMem bank) ||| at32 21 (keyEngine bank) |||
        at32 17 (keyBank bank) ||| at32 0 (if keyMem bank = 2 then word / 2 else word))

/-- Retire a word into a spare (R187, R188). The Bool says whether one was left. -/
def State.retireWord (s : State) (bank word : Nat) : State × Bool :=
  let d := keyDie bank
  let used := smGet (fun _ => 0) (s.die d).spares bank
  if used < keySpares bank then
    let s := s.modDie d fun x => { x with
      spares := smPut (fun _ => 0) x.spares bank (used + 1), toRecord := x.toRecord ++ [(bank, word)] }
    let s := s.setEcc (wordKey bank word) 0
    let s := { s with retired := smPut (fun _ => 0) s.retired (wordKey bank word) (used + 1) }
    (s.dMod d 0x4008 (fun v => (v &&& 0x80000000#32) ||| at32 29 (keyMem bank) ||| at32 25 (keyBank bank) |||
        at32 18 (keyEngine bank) ||| at32 0 word), true)
  else (s, false)

/-- The tracker entry with the oldest last error. -/
def oldest : List Track → Option Track
  | [] => none
  | t :: ts => match oldest ts with
    | some u => if u.last < t.last then some u else some t
    | none => some t

/-- Count a corrected error in the bank's tracker of 4 entries; at RTHRESH the word is retired, or, where no spare is left, FULL is
set and the memory event raised (R187, R188). Whether the entry of a retired word is freed the manual does not say: it stays with
its count (DESIGN CHOICE, log 95). -/
def State.track (s : State) (bank word : Nat) : State :=
  let d := keyDie bank
  let l := smGet (fun _ => []) (s.die d).track bank
  let n := ((l.find? fun t => t.word == word).map (·.count)).getD 0 + 1
  let rest := l.filter fun t => t.word ≠ word
  let rest := if rest.length < 4 then rest
    else match oldest rest with | some o => rest.filter fun t => t.word ≠ o.word | none => rest
  let hit := decide (fld (s.dGet d 0x4000) 3 0 ≤ n)
  let l' := rest ++ [{ word := word, count := n, last := s.fc }]
  let s := s.modDie d fun x => { x with track := smPut (fun _ => []) x.track bank l' }
  if hit then (match s.retireWord bank word with
    | (s, true) => s
    | (s, false) => (s.dMod d 0x4008 (setBit · 31 true)).lineDie d 3)
  else s

/-- Access one word: a single-bit error is corrected, logged and tracked; an uncorrectable one fails a read and a partial
write; a write of the whole word leaves no upset behind (R185 to R187). The Bool says whether the access succeeds. -/
def State.eccAccess (s : State) (bank word : Nat) (wr full : Bool) : State × Bool :=
  let k := wordKey bank word
  let c := s.eccOf k
  if c = 0 then (s, true)
  else if wr && full then (if c = 3 then s else s.setEcc k 0, true)
  else if c = 2 then (s.eccLog bank word true, false)
  else
    if keyMem bank = 3 then (if wr && c = 1 then s.setEcc k 0 else s, true) else
    let s := s.eccLog bank word false
    let s := if bitOf (s.dGet (keyDie bank) 0x4000) 8 then s.lineDie (keyDie bank) 3 else s
    let s := if wr && c = 1 then s.setEcc k 0 else s
    (s.track bank word, true)

/-- Access the words of a list in turn; stops at the first that fails. -/
def eccEach : List (Nat × Nat × Bool) → State → Bool → State × Bool
  | [], s, _ => (s, true)
  | (bank, word, full) :: l, s, wr =>
    match s.eccAccess bank word wr full with
    | (s, true) => eccEach l s wr
    | (s, false) => (s, false)
/-- Whether a store fails at a word: it writes a part of it, and the word holds an uncorrectable error (R185). -/
def State.eccFails (s : State) (w : Nat × Nat × Bool) : Bool := !w.2.2 && s.eccOf (wordKey w.1 w.2.1) == 2
/-- Access the words of a list for one access: a store that fails at one of them reads the words that it would have merged
into, up to that one, and writes none (R185). -/
def eccAll (l : List (Nat × Nat × Bool)) (s : State) (wr : Bool) : State × Bool :=
  if wr && l.any s.eccFails then ((eccEach (l.filter fun w => !w.2.2) s false).1, false) else eccEach l s wr

/-- The words that n bytes from offset x of a bank touch, each with whether every byte of it is written under the strobes. -/
def touched (bank x n strobe : Nat) : List (Nat × Nat × Bool) :=
  let lo := x / 8
  let hi := (x + n + 7) / 8
  (List.range (hi - lo)).filterMap fun i =>
    let w := lo + i
    let bits := (List.range 8).filter fun j =>
      decide (x ≤ 8 * w + j) && decide (8 * w + j < x + n) && strobe.testBit (8 * w + j - x)
    if bits.isEmpty then none else some (bank, w, bits.length == 8)

/-- Bytes of an engine's data scratchpad, by offset (R160): each bank in turn. -/
def spadTouched (e : EngineId) (x n strobe : Nat) : List (Nat × Nat × Bool) :=
  (touched 0 x n strobe).map fun (_, w, f) => (spadKey e (w / 2048), w % 2048, f)

/-- An ECC_TRACKER entry without an error for 2^24 fc is freed (R187). -/
def State.trackExpire (s : State) (d : DieId) (bank word : Nat) : State :=
  s.modDie d fun x => { x with
    track := smPut (fun _ => []) x.track bank
      ((smGet (fun _ => []) x.track bank).filter fun t => !(t.word == word && decide (t.last + 2 ^ 24 ≤ s.fc))) }

/-- A write of ECC_CTL: RTHRESH of 0 or 1 leaves the field unchanged. -/
def State.eccCtlWrite (s : State) (d : DieId) (v : Word) : State :=
  let v := v &&& 0x10F#32
  s.dPut d 0x4000 (if fld v 3 0 < 2 then setFld v 3 0 (fld (s.dGet d 0x4000) 3 0) else v)

/-! ## Owner codes (R163) -/

/-- Owner code of a bank, and an engine with it set. -/
def Engine.owner (g : Engine) (bank : Nat) : Nat := fld (g.ioGet (0x880 + 4 * (bank / 8))) (4 * (bank % 8) + 3) (4 * (bank % 8))
def Engine.setOwner (g : Engine) (bank code : Nat) : Engine :=
  let p := 0x880 + 4 * (bank / 8)
  g.ioPut p (setFld (g.ioGet p) (4 * (bank % 8) + 3) (4 * (bank % 8)) code)

/-! ## Skink -/

/-- Engine j of Gecko g. -/
def geckoEng (g : GeckoId) (j : Fin 16) : EngineId := ⟨16 * g.val + j.val, by omega⟩
/-- Whether Skink holds bank b of engine e. -/
def State.borrowed (s : State) (e : EngineId) (b : Nat) : Bool :=
  if h : e.val < 96 then s.skink[(⟨e.val / 16, by omega⟩ : GeckoId)].held.any fun k => k.eng.val == e.val % 16 && k.bank.val == b
  else false

/-- Skink yields: the save register is back in the word, the bank holds code 0x0, and the word is tested again later from step
1 (R196). -/
def State.skinkYield (s : State) (g : GeckoId) (j b : Fin 16) : State :=
  ((s.modEng (geckoEng g j) fun x => { x.setOwner b 0 with bankAt := x.bankAt.setIfInBounds b s.fc }).modSkink g
      fun k => { k with held := k.held.filter fun m => !(m.eng == j && m.bank == b) }).dMod (geckoDie g) 0x4024 (bumpFld · 11 0 1)
/-- Yield where Skink holds bank b of engine e (R197). -/
def State.yieldBank (s : State) (e : EngineId) (b : Nat) : State :=
  if h : e.val < 96 then
    (if s.borrowed e b then s.skinkYield ⟨e.val / 16, by omega⟩ ⟨e.val % 16, by omega⟩ ⟨b % 16, by omega⟩ else s)
  else s

/-- Skink borrows a bank (R193): enabled, test-preemptible, code 0x0, and no access for QUIET × 1,024 ec of its engine. -/
def State.skinkBorrow (s : State) (g : GeckoId) (j b : Fin 16) : State :=
  let ctl := s.dGet (geckoDie g) 0x4020
  let quiet := max 1 (fld ctl 23 12) * 1024
  let e := geckoEng g j
  let x := s.eng e
  if bitOf ctl 31 && bitOf (x.ioGet 0x88C) b && x.owner b == 0 &&
      decide (quiet * s.kF ≤ (s.fc - x.bankAt[b]) * s.engK e) && (s.die (geckoDie g)).mode ≠ 0 then
    (s.modEng e (·.setOwner b 4)).modSkink g fun k => { k with held := k.held ++ [{ eng := j, bank := b }] }
  else s

/-- The Pool banks lent to Skink, in ascending order (R192). -/
def State.lentBanks (s : State) (g : GeckoId) : List Nat :=
  (List.range 16).filter fun b => bitOf (s.dGet (geckoDie g) 0x4010) b

/-- The word that Skink tests next: of the banks it holds, then of the lent Pool banks; and the bank's engine. -/
def Skink.word (k : Skink) (g : GeckoId) (lent : List Nat) : Option (Nat × Nat × Option (Fin 16)) :=
  match k.held.find? fun m => decide (m.word < 2048) with
  | some m => some (spadKey (geckoEng g m.eng) m.bank, m.word, some m.eng)
  | none => (lent[k.pool / 262144]?).map fun p => (poolKey g p, k.pool % 262144, none)
/-- Skink with the word after that one next, n fabric cycles on. -/
def Skink.pass (k : Skink) (now n : Nat) : Skink :=
  { k with next := now + n, pool := if (k.held.find? fun m => decide (m.word < 2048)).isNone then k.pool + 1 else k.pool,
           held := updFirst (fun m => decide (m.word < 2048)) (fun m => { m with word := m.word + 1 }) k.held }
/-- Skink at the begin of a pass. -/
def Skink.restart (k : Skink) : Skink := { k with pool := 0, held := k.held.map fun m => { m with word := 0 } }
/-- The fabric cycles of one word: ten steps and GAP idle cycles, of the clock of the bank's engine or of the fabric (R194). -/
def State.skinkTime (s : State) (g : GeckoId) (j : Option (Fin 16)) : Nat :=
  let n := 10 + fld (s.dGet (geckoDie g) 0x4020) 11 0
  match j with
  | some j => (n * s.kF + s.engK (geckoEng g j) - 1) / s.engK (geckoEng g j)
  | none => n

/-- The march on one word is done (R194): the word ends as it was; a stuck bit fails a compare, and the word is retired or UNFIXED
set (R195). When Skink returns a bank whose words are all tested the manual does not say: it keeps it until a yield, counts a pass
after the last word of every bank it holds and of every lent Pool bank, and restarts at word 0 (DESIGN CHOICE, log 94). -/
def State.skinkTest (s : State) (g : GeckoId) : State :=
  let d := geckoDie g
  let lent := s.lentBanks g
  let s := if (s.skink[g].word g lent).isNone then s.modSkink g (·.restart) else s
  if !(bitOf (s.dGet d 0x4020) 31) || (s.die d).mode = 0 || decide (s.fc < s.skink[g].next) then s
  else match s.skink[g].word g lent with
  | none => s
  | some (bank, word, j) =>
    let s := if s.eccOf (wordKey bank word) = 3 then
        let s := s.dMod d 0x4024 (setBit · 30 true)
        match s.retireWord bank word with
        | (s, true) => s
        | (s, false) => (s.dMod d 0x4024 (setBit · 31 true)).lineDie d 3
      else s
    let s := s.modSkink g (·.pass s.fc (s.skinkTime g j))
    if (s.skink[g].word g lent).isNone then (s.modSkink g (·.restart)).dMod d 0x4024 (bumpFld · 29 16 1) else s

/-- A write of SKINK_CTL: EN = 0 makes Skink yield (R197). -/
def State.skinkCtlWrite (s : State) (g : GeckoId) (v : Word) : State :=
  let s := s.dPut (geckoDie g) 0x4020 (v &&& 0x80FFFFFF#32)
  if bitOf v 31 then s else forAll s.skink[g].held s fun m t => t.skinkYield g m.eng m.bank

/-- A write of BANK_TP: clearing the bit of a borrowed bank makes Skink yield (R197). -/
def State.bankTpWrite (s : State) (e : EngineId) (v : Word) : State :=
  let s := s.ioPut e 0x88C (v &&& 0xFFFF#32)
  forAll (List.range 16) s fun b t => if bitOf v b then t else t.yieldBank e b

/-! ## Handover (R167 to R169) -/

/-- Refuse a BANK_GIVE write. -/
def State.giveErr (s : State) (e : EngineId) : State := s.ioMod e 0x890 (setBit · 8 true)

/-- Whether a transaction is in flight on the governed port of a bank (R168, R169): one that has reached the bank port and waits
there, which only a DMA request does (R171, R197), or a write that port A has held (Table 6-5). A DMA burst that arrives while a
reclaim waits is refused. -/
def State.portBusy (s : State) (e : EngineId) (b : Nat) : Bool :=
  let lo := 0x10000000 + e.val * 0x40000 + b * 0x4000
  (s.dma.toList.any fun x => x.out.any fun q => q.atPort && q.resp.isNone && q.fa / 2 ^ 31 == s.devId &&
    decide (lo < q.fa % 2 ^ 31 + q.len) && decide (q.fa % 2 ^ 31 < lo + 0x4000)) ||
    (s.eng e).portB.any fun q => q.held && decide ((s.eng e).ec ≤ q.ec) && decide (lo ≤ q.addr) && decide (q.addr < lo + 0x4000)

/-- A write of BANK_GIVE by a writer that is the bank's current owner or not, and may reclaim or not (R167, R169). -/
def State.bankGive (s : State) (e : EngineId) (v : Word) (owner reclaimer : Bool) : State :=
  let b := fld v 3 0
  let code := fld v 7 4
  if bitOf v 8 then
    if !reclaimer then s.giveErr e
    else
      let s := s.yieldBank e b
      if s.portBusy e b then s.modEng e fun g => { g with reclaim := if g.reclaim.contains b then g.reclaim else g.reclaim ++ [b] }
      else s.modEng e (·.setOwner b 0)
  else if !owner || code == 4 || decide (5 < code) then s.giveErr e
  else if (code == 2 || code == 3) && (decide (1 < b) || s.world (neighbour e (code == 3)) ≠ s.world e) then s.giveErr e
  else (s.yieldBank e b).modEng e (·.setOwner b code)

/-- The end of a reclaim that waited for transactions in flight (R169). -/
def State.reclaimDone (s : State) (e : EngineId) (b : Nat) : State :=
  if (s.eng e).reclaim.contains b && !(s.portBusy e b) then
    s.modEng e fun g => { g.setOwner b 0 with reclaim := g.reclaim.filter (· ≠ b) }
  else s

/-- BANK_STAT as read. -/
def State.bankStat (s : State) (e : EngineId) : Word :=
  let held := sumNat ((List.range 16).map fun b => if s.borrowed e b then 2 ^ b else 0)
  (s.ioGet e 0x890) ||| at32 16 held

end Sys2Proof.Machine
end

