-- ==== Sys2Proof/Machine/LatTable.lean ====
section
/-!
DEFINITION. Machine/LatTable.lean: the latency table (R203, R204), its digest (R205, R206) and the load check (R93).
-/
namespace Sys2Proof.Machine

/-- Table 7-1: LAT on A1, LAT on B0, II, LAT2 of each class. -/
def latClasses : List (Nat × Nat × Nat × Nat) :=
  [ (1, 1, 1, 0), (3, 2, 1, 0), (34, 34, 34, 0), (1, 1, 1, 0), (2, 2, 1, 0), (3, 3, 1, 0), (4, 4, 1, 0), (6, 6, 6, 0),
    (1, 1, 1, 0), (1, 1, 1, 1), (2, 2, 1, 0), (4, 3, 1, 0), (6, 6, 1, 0), (4, 4, 1, 0) ] ++
  [ (5, 5, 1, 0), (5, 5, 1, 6), (20, 20, 16, 0), (12, 12, 16, 0), (8, 8, 16, 0), (3, 3, 1, 0), (1, 1, 1, 4),
    (14, 14, 1, 0), (1, 1, 1, 0), (1, 1, 1, 0), (18, 18, 16, 0), (10, 10, 16, 0), (6, 6, 16, 0), (0, 0, 1, 0) ]

/-- The stepping code (R3). -/
def stepCode : Stepping → Nat
  | .A1 => 1
  | .B0 => 2

/-- LT_CLASS of class i; registers past the last class read 0. -/
def latClassWord (st : Stepping) (i : Nat) : Word :=
  match latClasses[i]? with
  | some (a, b, ii, l2) => at32 16 l2 ||| at32 8 ii ||| at32 0 (match st with | .A1 => a | .B0 => b)
  | none => 0

/-- LT_HDR. -/
def latHdr (st : Stepping) : Word := at32 28 (stepCode st) ||| at32 16 28 ||| at32 0 1

/-- The 248 bytes that the digest covers (R205). -/
def latBytes (st : Stepping) : List Byte :=
  leBytes 4 ((latHdr st).toNat % 2 ^ 24) ++ (List.range 61).flatMap fun i => leBytes 4 (latClassWord st i).toNat

/-- DIG_LO and DIG_HI (R205). -/
def latDigLo (st : Stepping) : Word := crc32c (latBytes st)
def latDigHi (st : Stepping) : Word := crc32c (latBytes st).reverse

/-- Sys register n of LAT_TBL, n from 0x40 to 0x7F (R203). -/
def latReg (st : Stepping) (n : Nat) : Word :=
  if n = 0x40 then latHdr st
  else if n = 0x41 then latDigLo st
  else if n = 0x42 then latDigHi st
  else latClassWord st (n - 0x43)

/-- Latency of a class for an engine: MD8 uses the A1 value in classes 1 and 11 (R199, R209). -/
def Engine.classLat (g : Engine) (i : Nat) : Nat :=
  match latClasses[i]? with
  | some (a, b, _, _) => if g.mode = 8 then a else match Config.stepping with | .A1 => a | .B0 => b
  | none => 0

/-- The result code of the load check: 1 match, 2 portable, 3 MD8 only, 4 digest, 5 world (R93). -/
def checkResult (g : Engine) (v : Word) : Nat :=
  if bitOf v 2 != (g.world == .H) then 5
  else if g.ioGet 0x810 = latDigLo Config.stepping ∧ g.ioGet 0x814 = latDigHi Config.stepping then 1
  else if bitOf v 1 then 2
  else if g.mode = 8 then 3
  else 4

/-- A write of ENG_IMGCHK: with GO = 1 the check of a half, its result in ENG_IMGSTAT (R93, R97). A half whose acceptance ends
breaks an acknowledged change that needs it (R249). -/
def Engine.imgCheck (g : Engine) (v : Word) : Engine :=
  if bitOf v 31 then
    let b := bitOf v 0
    let r := checkResult g v
    let g := if r ≤ 3 then g else g.clearAcc b
    let w := g.ioGet 0x81C
    let w := setBit (setBit w (b2n b) (decide (r ≤ 3))) (2 + b2n b) (r == 3)
    g.ioPut 0x81C (setFld w 6 4 r)
  else g

end Sys2Proof.Machine
end

