-- ==== Sys2Proof/Machine/EngRegs.lean ====
section
/-!
DEFINITION. Machine/EngRegs.lean: engine registers with effects of their own: writes in force 2 ec later (R71, R159, R333,
R357, R383), the instruction scratchpad and its loading (R124 to R126, R179), the state window (R429), staged starts (R419)
and interrupt levels (R372).
-/
namespace Sys2Proof.Machine

/-! ## Writes in force 2 ec later -/

/-- Value of an engine register in force in the present ec. -/
def Engine.effIo (g : Engine) (port : Nat) : Word :=
  match g.late.find? (fun p => p.2.1 == port && decide (g.ec < p.1)) with
  | some p => p.2.2
  | none => g.ioGet port

/-- Add a late entry: in force from 2 ec on while the engine's clock runs its program. -/
def Engine.later (g : Engine) (port : Nat) (w : Word) : Engine := { g with late := g.late ++ [(g.ec + 2, port, w)] }

/-- Store a register whose value is in force 2 ec later; at once in an engine that issues nothing. -/
def Engine.ioLate (g : Engine) (port : Nat) (v : Word) : Engine :=
  if g.running then (g.ioPut port v).later port (g.ioGet port) else g.ioPut port v

/-- IE and VBASE in force. -/
def Engine.ie (g : Engine) : Bool := bitOf (g.effIo 0x8C0) 0
def Engine.vbase (g : Engine) : Nat := fld (g.effIo 0x8C0) 27 16
/-- IE set at an entry or a return (R357, R360): in force at once. -/
def Engine.setIe (g : Engine) (b : Bool) : Engine :=
  { g.ioPut 0x8C0 (setBit (g.ioGet 0x8C0) 0 b) with
    late := g.late.map fun (t, p, w) => (t, p, if p = 0x8C0 then setBit w 0 b else w) }

/-- Local address of an offset of the own scratchpad. -/
def ownAddr (e : EngineId) (off : Nat) : Nat := 0x10000000 + e.val * 0x40000 + off
/-- A write of EXC_CTL: during an entry, which lasts until the next ec of the engine, it acts on the IE bit of the frame's STAT
at once and the live IE stays 0; the other fields are in force 2 ec later (R357). -/
def State.excWrite (s : State) (e : EngineId) (v : Word) : State :=
  let put (v : Word) (s : State) : State := s.modEng e (·.ioLate 0x8C0 v)
  match (s.eng e).entryFrame with
  | none => put v s
  | some off =>
    let saved (w : Word) : Word := setBit w 10 (bitOf v 0)
    let s := put (setBit v 0 false) s
    if off < 2 ^ 20 then
      let a := ownAddr e (off + 4)
      { s with mem := memPut s.mem a 4 (saved (BitVec.ofNat 32 (memNat s.mem a 4))).toNat }
    else s.modEng e fun g => g.ioPut (off - 2 ^ 20 + 4) (saved (g.ioGet (off - 2 ^ 20 + 4)))

/-- The branch target buffer and the return stack are cleared (R69). -/
def Engine.btbClear (g : Engine) : Engine := { g with btb := [], rstack := [] }

/-- A wake of the vector unit begins where it sleeps (R156). -/
def Engine.wake (g : Engine) : Engine := if g.vpwr = .asleep then { g with vpwr := .waking, vwake := 96 } else g
/-- The effect of a write of VEC_PWR: WAKE and PINON (R156, R159). -/
def Engine.vecEffect (g : Engine) (v : Word) : Engine :=
  let g := if bitOf v 1 then { g with vidle := 0, vdue := false } else g
  if bitOf v 0 || bitOf v 1 then g.wake else g
/-- TLB_INV: the entries that translate VA, or all of them (R333). -/
def Engine.tlbInv (g : Engine) (v : Word) : Engine :=
  { g with tlb := if bitOf v 0 then [] else g.tlb.filter fun t => !(t.covers (fld v 31 12)) }
/-- PT_BASE: every entry with G = 0 is invalidated (R333). -/
def Engine.tlbBase (g : Engine) : Engine := { g with tlb := g.tlb.filter (·.glob) }

/-- The action that falls due for a late entry: 0x801 BTB_FLUSH, 0x841 VEC_PWR, 0x8A1 PT_BASE, 0x8A4 TLB_INV. -/
def Engine.lateAct (g : Engine) (port : Nat) (w : Word) : Engine :=
  if port = 0x801 then g.btbClear
  else if port = 0x841 then g.vecEffect w
  else if port = 0x8A1 then g.tlbBase
  else if port = 0x8A4 then g.tlbInv w
  else g

/-- Entries that are due act and leave the list. -/
def Engine.lateDue (g : Engine) : Engine :=
  let due := g.late.filter fun p => decide (p.1 ≤ g.ec)
  due.foldl (fun h p => h.lateAct p.2.1 p.2.2) { g with late := g.late.filter fun p => decide (g.ec < p.1) }

/-- An action 2 ec after the write; at once in an engine that issues nothing. -/
def Engine.actLate (g : Engine) (port : Nat) (w : Word) : Engine :=
  if g.running then g.later port w else g.lateAct port w

/-- ENG_ISSUE (R71). -/
def Engine.issueWrite (g : Engine) (v : Word) : Engine :=
  let g := g.ioLate 0x800 (v &&& 3#32)
  if bitOf v 2 then g.actLate 0x801 0 else g
/-- VEC_PWR (R159). -/
def Engine.vecPwrWrite (g : Engine) (v : Word) : Engine :=
  let g := g.ioLate 0x840 ((g.ioGet 0x840 &&& 0xFFFF0000#32) ||| (v &&& 1#32))
  if bitOf v 0 || bitOf v 1 then g.actLate 0x841 v else g
/-- VEC_PWR as read. -/
def Engine.vecPwr (g : Engine) : Word :=
  setFld (g.ioGet 0x840) 3 2 (match g.vpwr with | .on => 0 | .asleep => 1 | .waking => 2)
/-- A window register: LOG2 of 1 to 11 stores 0 (WIN_VAw). -/
def Engine.winWrite (g : Engine) (port : Nat) (mask v : Word) : Engine :=
  let v := v &&& mask
  g.ioLate port (if port % 16 = 0 ∧ fld v 4 0 < 12 then setFld v 4 0 0 else v)
/-- MEM_CACHE: invalidations (R181). -/
def Engine.cacheWrite (g : Engine) (v : Word) : Engine :=
  let g := if bitOf v 1 then { g with icache := [] } else g
  if bitOf v 0 then { g with dcache := [] } else g
/-- MEM_CACHE as read. -/
def Engine.memCache (g : Engine) : Word :=
  (g.ioGet 0x894 &&& 0xFFFF0000#32) ||| at32 12 (min 8 g.sbuf.length) ||| at32 11 (b2n g.sbuf.isEmpty)
/-- A captured `in` has not arrived (R356). -/
def Engine.capWait (g : Engine) : Bool :=
  match g.fabOut with
  | some { req := _, use := .capture _, resp := _ } => true
  | _ => false
/-- INT_PEND1 as read: queue levels in bits [15:0] (R372). -/
def Engine.pend1 (g : Engine) : Word :=
  (g.ioGet 0x8D0 &&& 0xFFFF0000#32) |||
    BitVec.ofNat 32 (sumNat ((List.finRange 16).map fun q => if g.iq[q].isEmpty then 0 else 2 ^ q.val))
/-- A doorbell (R371). -/
def Engine.ring (g : Engine) (v : Word) : Engine :=
  g.ioPut 0x8CC (g.ioGet 0x8CC ||| at32 16 (fld v 15 0))
/-- ENG_QOS: the nearer bound of the world's range (R320). -/
def Engine.qosWrite (g : Engine) (v : Word) : Engine :=
  g.ioPut 0x8A8 (BitVec.ofNat 32 (match g.world with | .T => max 8 (fld v 3 0) | .H => min 11 (fld v 3 0)))
/-- ENG_START: any write stages a start (R419). -/
def Engine.startWrite (g : Engine) (v : Word) : Engine :=
  g.ioPut 0xB10 (at32 31 1 ||| (g.ioGet 0xB10 &&& 0x30#32) ||| (v &&& 7#32))

/-! ## Instruction scratchpad -/

/-- What an unlisted word of the instruction scratchpad reads as: the boot ROM in half A of the Keeper (R415), else 0. -/
def imemDef (rom : Bool) (k : Nat) : Word :=
  if rom ∧ k < 0x4000 then BitVec.ofNat 32 (leNat ((List.range 4).map fun j => Config.bootRomByte (4 * k + j))) else 0
/-- Word k of the instruction scratchpad (R124). -/
def Engine.imemGet (g : Engine) (k : Nat) : Word := smGet (imemDef g.romA) g.imem k
/-- A word written: the half's acceptance clears (R95). -/
def Engine.imemPut (g : Engine) (k : Nat) (v : Word) : Engine :=
  let h := g.clearAcc (decide (0x4000 ≤ k))
  { h with imem := smPut (imemDef h.romA) h.imem k v }
/-- A bundle of the scratchpad: bits [32j+31:32j] are word j (R74, R124). -/
def Engine.bundleAt (g : Engine) (pc : Nat) : W256 :=
  BitVec.ofNat 256 (sumNat ((List.range 8).map fun j => (g.imemGet (8 * pc + j)).toNat * 2 ^ (32 * j)))
/-- The SECDED words that word k of the instruction scratchpad lies in, by half (R185). -/
def imemTouched (e : EngineId) (k : Nat) : List (Nat × Nat × Bool) := [(imemKey e (k / 0x4000), k % 0x4000 / 2, false)]

/-- Fetch uses a half in the present ec: the engine runs from it and is in no wait (R179). -/
def Engine.fetches (g : Engine) (b : Bool) : Bool :=
  g.running && !(bitOf g.pc 31) && halfOf g.pc == b && g.waitTo.isNone && !g.launchWait
/-- The half that ENG_ILADDR names. -/
def Engine.ilHalf (g : Engine) : Bool := decide (0x4000 ≤ fld (g.ioGet 0x820) 14 0)
/-- A word written through ENG_ILDATA: the address advances by 1 modulo 0x8000. A word that cannot be merged into its 64-bit
word ends in a bus error and nothing is written (R185). -/
def State.ilPut (s : State) (e : EngineId) (v : Word) : Resp × State :=
  let k := fld (s.ioGet e 0x820) 14 0
  match eccAll (imemTouched e k) s true with
  | (s, false) => (.bus 2, s)
  | (s, true) => (.ok 0, s.modEng e fun g => (g.imemPut k v).ioPut 0x820 (BitVec.ofNat 32 ((k + 1) % 0x8000)))
/-- The fault of an own word that waited in the buffer and could not be merged: an operation exception of the `out` that placed
it, found in the ec of the write (R179, R185, R346; log 79). -/
def Engine.ilFail (g : Engine) (k : Nat) : Engine :=
  { g with
    opId := g.opId + 1
    inflight := g.inflight ++ [{ id := g.opId, unit := 12, opcode := 1, slot := 0, pc := g.pc, age := 4, lat := 4, act := .store,
                                 ecAt := g.ec, cyc := g.cycle, sup := g.sup,
                                 fault := some (4, { cause := 4, faddr := 0x824#32, cdetail := BitVec.ofNat 32 k }) }] }
/-- Words that wait for the half, the own buffer first, are written where `free` says that the ec lets them (R179). -/
def ilHeldOut : List (Word × Option Waiter) → State → EngineId → (Engine → Bool) → State
  | [], s, e, _ => s.modEng e fun g => { g with ilHeld := [] }
  | (v, who) :: l, s, e, free =>
    if free (s.eng e) then
      let (r, s) := s.ilPut e v
      ilHeldOut l (s.fabDone who r) e free
    else s.modEng e fun g => { g with ilHeld := (v, who) :: l }
def State.ilFlush (s : State) (e : EngineId) (free : Engine → Bool) : State :=
  let g := s.eng e
  let s := match g.ilBuf with
    | some v =>
      if free g then
        let (r, t) := s.ilPut e v
        t.modEng e fun g => match r with | .bus k => { g with ilBuf := none }.ilFail k | _ => { g with ilBuf := none }
      else s
    | none => s
  ilHeldOut (s.eng e).ilHeld s e free
/-- A write of ENG_ILDATA: an own `out` fills the buffer, an alias write is held, while fetch uses the half (R179). -/
def State.ildata (s : State) (e : EngineId) (own : Bool) (who : Option Waiter) (v : Word) : Resp × State :=
  let g := s.eng e
  if !(g.fetches g.ilHalf) && g.ilHeld.isEmpty && g.ilBuf.isNone then s.ilPut e v
  else if own then (.ok 0, s.modEng e fun g => { g with ilBuf := some v })
  else (.held, s.modEng e fun g => { g with ilHeld := g.ilHeld ++ [(v, who)] })

/-! ## State window (R429) -/

/-- Width of port k (0 a, 1 b, 2 c, else a result port) of a unit: 128 bits for vec, and for vlsu but its address port; else 32
(R135). -/
def portMask (unit k : Nat) : Vec :=
  if unit = 11 ∨ (unit = 10 ∧ k ≠ 0) then BitVec.allOnes 128 else 0xFFFFFFFF#128
/-- Word j of a 128-bit value, and the value with word j replaced. -/
def vecWord (v : Vec) (j : Nat) : Word := BitVec.ofNat 32 (fld v (32 * j + 31) (32 * j))
def setVecWord (v : Vec) (j : Nat) (w : Word) : Vec := setFld v (32 * j + 31) (32 * j) w.toNat

/-- Ports of functional unit u (3 to 15). -/
def Engine.unit (g : Engine) (u : Nat) : UnitPorts := g.units.getD u {}
def Engine.setUnit (g : Engine) (u : Nat) (p : UnitPorts) : Engine := { g with units := g.units.setIfInBounds u p }

/-- The port that a window offset of a unit names: a, b, c or q1, q or q0. -/
def snapPort (p : UnitPorts) (u k : Nat) : Vec :=
  if k = 0 then p.a else if k = 1 then p.b else if k = 2 then (if u = 6 then p.q1 else p.c) else p.q
def setSnapPort (p : UnitPorts) (u k : Nat) (v : Vec) : UnitPorts :=
  let v := v &&& portMask u k
  if k = 0 then { p with a := v } else if k = 1 then { p with b := v }
  else if k = 2 then (if u = 6 then { p with q1 := v } else { p with c := v }) else { p with q := v }

/-- A word of the state window. -/
def Engine.snapGet (g : Engine) (p : Nat) : Word :=
  let o := p - 0x1000
  if o < 0x80 then g.gr.getD (o / 4) 0
  else if o < 0x180 then vecWord (g.vr.getD ((o - 0x80) / 16) 0) (o % 16 / 4)
  else if o < 0x1A0 then (if o = 0x180 then 0xFFFF else (g.pr.getD ((o - 0x180) / 4) 0).setWidth 32)
  else if o = 0x1A0 then g.lc
  else if o = 0x1A4 then g.ra
  else if o = 0x1A8 then g.pc
  else if o = 0x1AC then g.astat.setWidth 32
  else if o = 0x1B0 then g.launch.setWidth 32
  else if o = 0x1B4 then BitVec.ofNat 32 (fld g.launch 63 32)
  else if 0x200 ≤ o ∧ o < 0x540 then
    let u := 3 + (o - 0x200) / 0x40
    vecWord (snapPort (g.unit u) u (o % 0x40 / 16)) (o % 16 / 4)
  else 0
/-- Write a word of the state window; p0 and words without content ignore it (R39). -/
def Engine.snapPut (g : Engine) (p : Nat) (w : Word) : Engine :=
  let o := p - 0x1000
  if o < 0x80 then { g with gr := g.gr.setIfInBounds (o / 4) w }
  else if o < 0x180 then
    let n := (o - 0x80) / 16
    { g with vr := g.vr.setIfInBounds n (setVecWord (g.vr.getD n 0) (o % 16 / 4) w) }
  else if o < 0x1A0 then
    (if o = 0x180 then g else { g with pr := g.pr.setIfInBounds ((o - 0x180) / 4) (w.setWidth 16) })
  else if o = 0x1A0 then { g with lc := w }
  else if o = 0x1A4 then { g with ra := w }
  else if o = 0x1A8 then { g with pc := w }
  else if o = 0x1AC then { g with astat := w.setWidth 4 }
  else if o = 0x1B0 then { g with launch := setFld g.launch 31 0 w.toNat }
  else if o = 0x1B4 then { g with launch := setFld g.launch 63 32 w.toNat }
  else if 0x200 ≤ o ∧ o < 0x540 then
    let u := 3 + (o - 0x200) / 0x40
    let k := o % 0x40 / 16
    g.setUnit u (setSnapPort (g.unit u) u k (setVecWord (snapPort (g.unit u) u k) (o % 16 / 4) w))
  else g

end Sys2Proof.Machine
end

