-- ==== Sys2Proof/Machine/Pins.lean ====
section
/-!
DEFINITION. Machine/Pins.lean: temperature (R430, R431), READY as read (R424), timers (R411), the host page BAR0 (R395, R408,
R448), decision inputs (R241) and fine delay (R240).
-/
namespace Sys2Proof.Machine

/-! ## Temperature -/

/-- Code of a die in a word of eight. -/
def tempOf (codes : Dword) (d : Nat) : Nat := fld codes (8 * d + 7) (8 * d)
/-- Some die at or above t degrees; every die at or below it (CODE − 64 degrees). -/
def anyHot (codes : Dword) (t : Nat) : Bool := (List.range 8).any fun d => decide (t + 64 ≤ tempOf codes d)
def allCool (codes : Dword) (t : Nat) : Bool := (List.range 8).all fun d => decide (tempOf codes d ≤ t + 64)

/-- A sample of every sensor (R430): THERM_TEMP, ALARM and line 7 at 115 °C, its end at 110 °C. -/
def State.thermSample (s : State) (codes : Dword) : State :=
  if !(bitOf (s.n0 0x7E00) 0) then s
  else
    let s := ((s.n0Put 0x7F00 (codes.setWidth 32)).n0Put 0x7F04 (BitVec.ofNat 32 (fld codes 63 32)))
    let s := { s with liveTemp := codes }
    if anyHot codes 115 then
      let was := s.throttled
      let s := ({ s with throttled := true }.n0Mod 0x7F08 (setBit · 0 true)).lineAll 7
      if was then s else s.msi 1
    else if s.throttled && allCool codes 110 then
      { s with throttled := false }.n0Mod 0x7F08 (setBit · 0 false)
    else s

/-- A live temperature of 135 °C or more (R431). -/
def State.thermTrip (s : State) (codes : Dword) : State :=
  let s := { s with liveTemp := codes }
  if anyHot codes 135 && !s.inReset then
    let t := s.tripAll.n0Mod 0x7F08 (setBit · 1 true)
    if s.tripped then t else (t.msi 1).faultMsi s
  else s
/-- A write of THERM_STAT: TRIP clears only while every die is below 125 °C (R431). -/
def State.thermWrite (s : State) (v : Word) : State :=
  if bitOf v 1 && !(anyHot s.liveTemp 125) then s.n0Mod 0x7F08 (setBit · 1 false) else s

/-! ## READY -/

/-- Quad bit: EN and every lane that is not retired in ACTIVE (Table 14-4). -/
def State.quadReady (s : State) (q : QuadId) : Bool :=
  qEN (s.quadCfg q) && (quadLanes q).all fun l => s.masked l || s.lanes[l].st = .active
/-- READY bits of Foxglove g, of Pool bank b of Gecko g, of the calibration store, as the bring-up has set them. -/
def State.foxReady (s : State) (g : GeckoId) : Bool := bitOf (s.n0 0x7E00) (16 + g.val)
def State.bankReady (s : State) (g : GeckoId) (b : Nat) : Bool := bitOf (s.n0 (0x7E1C + 4 * (g.val / 2))) (16 * (g.val % 2) + b)
def State.calsReady (s : State) : Bool := bitOf (s.n0 0x7E00) 1
/-- Pool bank b of Gecko g is usable: not in MD0, whose accesses end in a bus error, and not offline (R190, R416, R424). -/
def State.bankLive (s : State) (g : GeckoId) (b : Nat) : Bool :=
  s.bankReady g b && (s.die (geckoDie g)).mode ≠ 0 && !(bitOf (s.dGet (geckoDie g) 0x4010) b)
/-- READY0 as read: KEEPER while the Keeper runs, FOX outside MD0, POOL while all 16 banks are usable (R416, R424). -/
def State.ready0 (s : State) : Word :=
  let v := s.n0 0x7E00
  let keep (i : Nat) : Bool :=
    if i = 5 then (s.eng 96).running
    else if h : 16 ≤ i ∧ i < 22 then (s.die (geckoDie ⟨i - 16, by omega⟩)).mode ≠ 0
    else if h : 24 ≤ i ∧ i < 30 then (List.range 16).all (s.bankLive ⟨i - 24, by omega⟩)
    else true
  BitVec.ofNat 32 (sumNat ((List.range 32).map fun i => if bitOf v i && keep i then 2 ^ i else 0))
/-- READY7 to READY9 as read: the banks that are usable. -/
def State.readyBanks (s : State) (k : Nat) : Word :=
  BitVec.ofNat 32 (sumNat ((List.range 32).map fun i =>
    if s.bankLive ⟨(2 * (k - 7) + i / 16) % 6, by omega⟩ (i % 16) then 2 ^ i else 0))
/-- READYk as read: base bits, and those that follow other state (Table 14-4). -/
def State.ready (s : State) (k : Nat) : Word :=
  let v := s.n0 (0x7E00 + 4 * k)
  if k = 0 then
    s.ready0 ||| at32 2 (b2n s.onExpref) ||| at32 3 (b2n (s.helio.st = .aligned)) ||| at32 4 (b2n s.pcie.link) |||
      BitVec.ofNat 32 (sumNat ((List.finRange 4).map fun p => if s.ports[p].up then 2 ^ (8 + p.val) else 0))
  else if k = 5 ∨ k = 6 then
    BitVec.ofNat 32 (sumNat ((List.finRange 36).map fun q =>
      if q.val / 32 = k - 5 ∧ s.quadReady q then 2 ^ (q.val % 32) else 0))
  else if 7 ≤ k then s.readyBanks k
  else v

/-! ## Timers (R411) -/

/-- Timer t fires: the doorbell bit, then the next target or the end. -/
def State.timerFire (s : State) (t : RedId) : State :=
  let p := 0x7C00 + 16 * t.val
  let c := s.n0 p
  let target : Dword := BitVec.ofNat 64 ((s.n0 (p + 4)).toNat + (s.n0 (p + 8)).toNat * 2 ^ 32)
  let per := fld (s.n0 (p + 12)) 15 0
  if bitOf c 31 && timeReached target s.timNow then
    let s := match s.physOf (fld c 22 16) with | some e => s.setLine e (16 + fld c 3 0) | none => s
    if per = 0 then s.n0Put p (setBit c 31 false)
    else
      let n := target + BitVec.ofNat 64 (per * 65536)
      (s.n0Put (p + 4) (n.setWidth 32)).n0Put (p + 8) (BitVec.ofNat 32 (fld n 63 32))
  else s

/-! ## Decision pins -/

/-- An edge on DEC_INk (R241, R229, Table 12-8): the line, a timestamp where the edge is selected, the epoch pulse. EDGE = 3 is
reserved, and no edge is selected then (DESIGN CHOICE, log 106). -/
def State.decEdge (s : State) (k : Fin 16) (rising : Bool) : State :=
  let s := { s with pins := { s.pins with decIn := setBit s.pins.decIn k.val rising } }
  if s.inReset then s
  else
  let n : Fin 2 := if k.val < 8 then 0 else 1
  let s := if bitOf (s.dGet (newtDie n) 0x5300) (k.val % 8) then
      match s.dinUnit n (k.val % 8) with
      | some u =>
        let e := fld (s.dGet (newtDie n) (0x5100 + 16 * u)) 1 0
        if e = 2 || (e = 0 && rising) || (e = 1 && !rising) then s.capStamp n u else s
      | none => s
    else s
  if rising then (s.lineAll (48 + k.val)).epochPulse k.val else s

/-- CODE of DEC_OUTk takes NEXT, at a time-base edge after the write that ends a full reference period in which the output did not
change (R240). -/
def State.fineApply (s : State) (k : Fin 32) : State :=
  let d := decNewt k.val
  let p := 0x5200 + 4 * (k.val % 16)
  if fracOf s.timNow = 0 && bitOf s.pins.outQuiet k.val && !(bitOf s.pins.fineNew k.val) then
    s.dMod d p fun v => setFld v 8 0 (fld v 24 16)
  else s

/-! ## The host page -/

/-- A read of BAR0: slots, CLM_LAST (which it clears), pending bits, MSI-X table. -/
def State.bar0Read (s : State) (off : Nat) : Word × State :=
  if off % 4 ≠ 0 then (0, s)
  else if h : off < 0x800 then
    (if off % 32 = 16 then s.slotCtl ⟨off / 32, by omega⟩ else 0, s)
  else if off = 0x800 then (s.pcie.clmLast, { s with pcie := { s.pcie with clmLast := 0 } })
  else if off = 0x900 then (s.pcie.pend.setWidth 32, s)
  else if off = 0x904 then (BitVec.ofNat 32 (fld s.pcie.pend 63 32), s)
  else if 0xC00 ≤ off ∧ off < 0x1000 then (s.bar0 off, s)
  else (0, s)

/-- A write of BAR0: tokens while a slot is unbound, BIND, and the MSI-X table, where unmasking sends a pending vector. -/
def State.bar0Write (s : State) (off : Nat) (v : Word) : State :=
  if off % 4 ≠ 0 then s
  else if h : off < 0x800 then
    let i : SlotId := ⟨off / 32, by omega⟩
    if off % 32 < 16 then
      (if s.slotBound i then s
       else s.modSlot i fun x => { x with token := setFld x.token (8 * (off % 32) + 31) (8 * (off % 32)) v.toNat })
    else if off % 32 = 16 ∧ bitOf v 31 then s.bindSlot i
    else s
  else if 0xC00 ≤ off ∧ off < 0x1000 then
    let s := { s with pcie := { s.pcie with bar0 := smPut bar0Reset s.pcie.bar0 off v } }
    let n := (off - 0xC00) / 16
    if off % 16 = 12 ∧ !(bitOf v 0) ∧ bitOf s.pcie.pend n ∧ !s.pcie.fmask ∧ s.pcie.link then
      { s with pcie := { s.pcie with pend := setBit s.pcie.pend n false } }.msi n
    else s
  else s

/-- The link is up: pending vectors that nothing masks are sent (R448). -/
def State.msiPending (s : State) : State :=
  forAll (List.range 64) s fun n t =>
    if bitOf t.pcie.pend n && t.pcie.enable && !t.pcie.fmask && !(bitOf (t.bar0 (0xC00 + 16 * n + 12)) 0) then
      { t with pcie := { t.pcie with pend := setBit t.pcie.pend n false } }.msi n
    else t
/-- A write of HOST_RING: vectors 8 to 63 (R448). -/
def State.hostRing (s : State) (v : Word) : State := if 8 ≤ fld v 5 0 then s.msi (fld v 5 0) else s

end Sys2Proof.Machine
end

