-- ==== Sys2Proof/Machine/Boot.lean ====
section
/-!
DEFINITION. Machine/Boot.lean: program images (R89 to R92, R246, R294, R457), power-on reset (R14, R440), bring-up (R423),
the Keeper's boot (R425) and PERST_N (R442).
-/
namespace Sys2Proof.Machine

/-! ## Images -/

abbrev Image := List Byte

/-- Little-endian field of an image. -/
def imgNat (b : Image) (off n : Nat) : Nat := leNat ((b.drop off).take n)

/-- A section-table entry (Table 3-9) with its reserved bytes. -/
structure Sect where
  kind : Nat
  res  : Nat
  target : Nat
  size : Nat
  foff : Nat
deriving DecidableEq, Repr

/-- The section table of an image (R90). -/
def imgSects (b : Image) : List Sect :=
  (List.range (imgNat b 0x0C 2)).map fun i =>
    let o := 0x40 + 16 * i
    { kind := imgNat b o 1, res := imgNat b (o + 1) 3, target := imgNat b (o + 4) 4, size := imgNat b (o + 8) 4,
      foff := imgNat b (o + 12) 4 }

/-- Entry points in use. -/
def imgEntries (b : Image) : List Nat := (List.range (imgNat b 0x0E 2)).map fun i => imgNat b (0x18 + 4 * i) 4

/-- Bytes of a section. -/
def sectBytes (b : Image) (x : Sect) : List Byte := (b.drop x.foff).take x.size

/-- Bundles or bytes that a section of kinds 1 to 4 takes at its target, with the space (0 code, 1 data). -/
def sectSpan (x : Sect) : Option (Nat × Nat × Nat) :=
  if x.kind = 1 ∨ x.kind = 2 then some (0, x.target, x.size / 32)
  else if x.kind = 3 ∨ x.kind = 4 then some (1, x.target, x.size) else none

/-- Limits of Table 3-10, and the section lies in the image. Of a ROUTE or SLOT section whose SIZE is not a whole number of records
the manual does not speak: it is refused (DESIGN CHOICE, log 96). A ZERO section whose FOFF is not 0 is refused, and unused ENTRY
fields that are not 0 are accepted, of which R91 names neither (log 103). -/
def sectOk (b : Image) (x : Sect) : Bool :=
  x.res == 0 && (if x.kind = 4 then x.foff == 0 else decide (x.foff + x.size ≤ b.length)) &&
    (match x.kind with
     | 1 => x.size % 32 == 0 && decide (x.target < 0x800) && decide (x.target + x.size / 32 ≤ 0x800)
     | 2 => x.size % 32 == 0 && decide (0x800 ≤ x.target) && decide (x.target < 0x1000) && decide (x.target + x.size / 32 ≤ 0x1000)
     | 3 | 4 => x.size % 8 == 0 && x.target % 8 == 0 && decide (x.target + x.size ≤ 0x40000)
     | 0x10 => (x.target == 6 || x.target == 7) && x.size % 16 == 0
     | 0x11 => decide (x.target ≤ 7) && x.size % 8 == 0
     | _ => false)

/-- No two elements of a list satisfy p. -/
def noPair {α : Type} (p : α → α → Bool) : List α → Bool
  | [] => true
  | x :: xs => xs.all (fun y => !(p x y)) && noPair p xs

/-- Two sections overlap at their targets, which empty ones do not, or configure one die twice (R91). -/
def sectClash (x y : Sect) : Bool :=
  match sectSpan x, sectSpan y with
  | some (k, a, n), some (l, c, m) => k == l && decide (0 < n) && decide (0 < m) && decide (a < c + m) && decide (c < a + n)
  | none, none => x.kind == y.kind && x.target == y.target
  | _, _ => false

/-- The records of n bytes of a section. -/
def sectRecs (b : Image) (x : Sect) (n : Nat) : List (List Byte) :=
  (List.range (x.size / n)).map fun i => ((sectBytes b x).drop (n * i)).take n

/-- A ROUTE record keeps R294; the lane is global. -/
def State.routeRecOk (s : State) (d : Nat) (r : List Byte) : Bool :=
  let l := imgNat r 0 1
  let w0 : Word := BitVec.ofNat 32 (imgNat r 4 4)
  let w1 : Word := BitVec.ofNat 32 (imgNat r 8 4)
  if h : l < 144 then
    l / 72 + 6 == d && decide (imgNat r 1 1 < 4) && imgNat r 2 2 == 0 &&
      !(qEN (s.laneCfg ⟨l, h⟩)) && (!(bitOf w0 6) || qFixed (s.laneCfg ⟨l, h⟩)) &&
      (fld w0 1 0 ≠ 3 || poolTarget w1) && decide (imgNat r 12 4 % 16 ≤ 12)
  else false

/-- A SLOT record keeps R246. -/
def slotRecOk (d : Nat) (r : List Byte) : Bool :=
  portListed ⟨d % 8, by omega⟩ (imgNat r 0 1) && decide (imgNat r 1 1 ≤ 119) && decide (imgNat r 3 1 ≤ 1) && imgNat r 4 4 == 0

/-- The records of a section keep their rules. -/
def State.recsOk (s : State) (b : Image) (x : Sect) : Bool :=
  if x.kind = 0x10 then (sectRecs b x 16).all (s.routeRecOk x.target)
  else if x.kind = 0x11 then (sectRecs b x 8).all (slotRecOk x.target) else true

/-- An image passes R91: n bytes were received (log 30). NSECT outside 1 to 64, NENTRY outside 1 to 4 and a section table past the
image's end refuse it too, which R91 does not list (DEDUCED from Table 3-8, log 103). -/
def State.imageOk (s : State) (b : Image) : Bool :=
  let ss := imgSects b
  decide (0x40 ≤ b.length) && imgNat b 0 4 == 0x494B5446 && imgNat b 4 2 == 1 && imgNat b 6 2 == 0x40 &&
    decide (imgNat b 8 4 < 4) && imgNat b 0x30 16 == 0 && imgNat b 0x2C 4 == b.length &&
    crc32c (b.take 0x28 ++ [0, 0, 0, 0] ++ b.drop 0x2C) == BitVec.ofNat 32 (imgNat b 0x28 4) &&
    decide (1 ≤ ss.length) && decide (ss.length ≤ 64) && decide (0x40 + 16 * ss.length ≤ b.length) &&
    decide (1 ≤ imgNat b 0x0E 2) && decide (imgNat b 0x0E 2 ≤ 4) &&
    ss.all (sectOk b) && noPair sectClash ss && ss.all (s.recsOk b) &&
    (imgEntries b).all fun pc => ss.any fun x =>
      (x.kind == 1 || x.kind == 2) && decide (x.target ≤ pc) && decide (pc < x.target + x.size / 32)

/-! ## Loading into the Keeper -/

/-- Words of a list of bytes. -/
def imgWords (l : List Byte) : List Word := (List.range (l.length / 4)).map fun i => BitVec.ofNat 32 (imgNat l (4 * i) 4)

/-- A section written into the Keeper: code words through ixu, data bytes into the own scratchpad. -/
def State.loadSect (s : State) (b : Image) (x : Sect) : State :=
  if x.kind = 2 then
    s.modEng keeper fun g =>
      (List.zipIdx (imgWords (sectBytes b x))).foldl (fun h p => h.imemPut (8 * x.target + p.2) p.1) g
  else if x.kind = 3 then
    { s with mem := memPut s.mem (0x10000000 + 96 * 0x40000 + x.target) x.size (leNat (sectBytes b x)) }
  else if x.kind = 4 then
    { s with mem := memPut s.mem (0x10000000 + 96 * 0x40000 + x.target) x.size 0 }
  else s

/-- The Keeper as the writer of a die register through the alias. -/
def keeperAccess : Access := { eng := some keeper, world := .H, sup := true }

/-- A ROUTE record written through the die register alias: W1 and W2 before W0, whose check needs them. -/
def State.loadRoute (s : State) (r : List Byte) : State :=
  if h : imgNat r 0 1 < 144 then
    let l : LaneId := ⟨imgNat r 0 1, h⟩
    let k : Fin 4 := ⟨imgNat r 1 1 % 4, by omega⟩
    let w (o : Nat) : Word := BitVec.ofNat 32 (imgNat r o 4)
    ((s.routeWrite l k 1 (w 8)).routeWrite l k 2 (w 12)).routeWrite l k 0 (w 4)
  else s

/-- A SLOT record written into the inactive bank; the ROM claims the target port first, as R410 asks of every writer
(log 31). -/
def State.loadSlot (s : State) (d : DieId) (r : List Byte) : State :=
  let t := imgNat r 0 1
  let s := if (s.claimOf d t).isNone then s.claimCmd keeperAccess d t else s
  let p := 0x8000 + 0x4000 * b2n (!(s.die d).active) + 0x100 * t + 2 * imgNat r 1 1
  s.slotWrite keeperAccess d p (at32 15 (imgNat r 3 1 % 2) ||| at32 0 (imgNat r 2 1))

/-- ROUTE and SLOT sections. -/
def State.loadConfig (s : State) (b : Image) (x : Sect) : State :=
  if x.kind = 0x10 then forAll (sectRecs b x 16) s fun r t => t.loadRoute r
  else if x.kind = 0x11 then forAll (sectRecs b x 8) s fun r t => t.loadSlot ⟨x.target % 8, by omega⟩ r
  else s

/-- BOOT_STAT; vector 3 where the stage becomes 3 or 4, READY0.BOOTED with stage 3 (R448, Table 14-4). -/
def State.bootStat (s : State) (stage err src : Nat) : State :=
  let s := s.n0Put 0x7F20 (at32 8 err ||| at32 4 src ||| at32 0 stage)
  let s := if stage = 3 then s.n0Mod 0x7E00 (setBit · 6 true) else s
  if stage = 3 ∨ stage = 4 then s.msi 3 else s

/-- The load step of R425, with an image that passed. -/
def State.bootLoad (s : State) (b : Image) (src : Nat) : State :=
  let ss := imgSects b
  if ss.any (·.kind == 1) then s.bootStat 4 4 src
  else
    let s := forAll ss s fun x t => t.loadSect b x
    let s := forAll ss s fun x t => t.loadConfig b x
    let flags := imgNat b 8 4
    let s := s.modEng keeper fun g =>
      ((g.ioPut 0x810 (BitVec.ofNat 32 (imgNat b 0x10 4))).ioPut 0x814 (BitVec.ofNat 32 (imgNat b 0x14 4))).imgCheck
        (at32 31 1 ||| at32 2 (flags / 2 % 2) ||| at32 1 (flags % 2) ||| at32 0 1)
    if (s.eng keeper).accepted true then
      (s.modEng keeper fun g => g.startAt true (imgNat b 0x18 4)).bootStat 3 0 src
    else s.bootStat 4 5 src

/-- An image passes R91 with world = 1. -/
def State.bootOk (s : State) (b : Image) : Bool := s.imageOk b && bitOf (BitVec.ofNat 32 (imgNat b 8 4)) 1

/-- The bytes of a flash copy that the boot takes for an image: as many as its LENGTH field states, at most 4 MiB (log 30). -/
def flashImage (l : List Byte) : Image :=
  if imgNat l 0x2C 4 ≤ 0x400000 then l.take (imgNat l 0x2C 4) else l.take 0x400000

/-- The Keeper's boot (R425): once, when the calibration store and the Pool of Gecko 0 are ready; each flash copy is copied to
the Pool before its image is checked. -/
def State.keeperBoot (s : State) (sfdp : Bool) (primary backup : Image) : State :=
  let r := s.n0 0x7E00
  if !(bitOf r 1 && bitOf r 5 && bitOf r 24) || s.n0 0x7F20 ≠ 0 || (s.eng keeper).mode ≠ 1 then s
  else
    let src := memNat s.cal 0 4 % 4
    if src = 2 then s.bootStat 1 0 3
    else
      let copy (i : Image) (t : State) : State :=
        let j := i.take 0x400000
        { t with mem := memPut t.mem 0 j.length (leNat j) }
      let one := flashImage primary
      let two := flashImage backup
      if !sfdp then (if src = 1 then s.bootStat 4 1 0 else s.bootStat 1 0 3)
      else
        let s := copy primary s
        if s.bootOk one then s.bootLoad one 1
        else
          let s := copy backup s
          if s.bootOk two then s.bootLoad two 2
          else if src = 1 then s.bootStat 4 2 2 else s.bootStat 1 0 3

/-- A write of BOOT_MBOX: while STAGE = 1 it starts the load of the host's image from Pool of Gecko 0. -/
def State.bootMbox (s : State) (v : Word) : State :=
  let v := v &&& 0x7FFFFF#32
  let s := s.n0Put 0x7F24 v
  if fld (s.n0 0x7F20) 3 0 ≠ 1 then s
  else
    let n := v.toNat
    if n = 0 || decide (0x400000 < n) then s.bootStat 4 3 3
    else
      let b := leBytes n (memNat s.mem 0 n)
      if s.bootOk b then s.bootLoad b 3 else s.bootStat 4 3 3

/-! ## Power-on reset and bring-up -/

/-- The reset of POR_N (R14, R41, R189, R389, R440): everything returns to its state after reset; the calibration store, the
retirements recorded in it, stuck memory cells and the levels of the input pins stay. -/
def State.powerOn (s : State) (hold : Bool) : State :=
  let open_ := (List.finRange 8).flatMap fun d => (s.die d).toRecord
  let kept := s.retired.filter fun p => !(open_.any fun q => wordKey q.1 q.2 == p.1)
  { State.reset with
    pending := s.pending, cal := s.cal, retired := kept, ecc := s.ecc.filter fun p => p.2 == 3,
    sealKey := Config.randomKey s.freeCtr, freeCtr := s.freeCtr + 1, supplyHold := hold,
    pins := { s.pins with por := if hold then s.pins.por else true, outQuiet := 0, fineNew := 0 }, liveTemp := s.liveTemp, i2cData := s.i2cData,
    dies := .ofFn fun d => { (State.reset.dies[d]) with
      spares := (s.die d).spares.filterMap fun p =>
        let used := (kept.filter fun q => q.1 / 2 ^ 20 == p.1).length
        if used = 0 then none else some (p.1, used) } }

/-- The retirement map of the front-end lanes in the calibration store (R299). -/
def State.laneMap (s : State) : BitVec 144 := BitVec.ofNat 144 (memNat s.cal 0x200 18)

/-- Bring-up (R423), as one command: the READY bits of Table 14-4 that do not follow other state, the lanes' retirement map,
cleared engines and Pool, the Keeper's copy of the ROM and its acceptance (R415). -/
def State.bringUp (s : State) (straps : Fin 8) : State :=
  if s.inReset || bitOf (s.n0 0x7E00) 0 then s
  else
    let m := s.laneMap
    let s := { s with
      pins := { s.pins with i2cA := straps }, chanMask := m, mem := [], throttled := false,
      pcie := { s.pcie with training := s.pins.perst },
      lanes := .ofFn fun l => if bitOf m l.val then { s.lanes[l] with st := .retired } else s.lanes[l] }
    let s := (List.range 10).foldl (fun t k => t.n0Put (0x7E00 + 4 * k)
      (match k with
       | 0 => 0x3F3F0023#32
       | 1 | 2 | 3 | 7 | 8 | 9 => 0xFFFFFFFF#32
       | 4 => 0xF#32
       | _ => 0#32)) s
    s.modEng keeper fun g => { g with romA := true, imem := [], held := false }.ioPut 0x81C 1

/-! ## PERST_N (R442) -/

/-- A request of the host on its way to its target. -/
def Beat.isHost (b : Beat) : Bool := match b.use with | .host _ _ _ _ _ _ _ => true | _ => false
/-- PERST_N falls: the endpoint is reset, and every host request in flight ends. While the package is in reset it is ignored. -/
def State.perstFall (s : State) : State :=
  if s.inReset then { s with pins := { s.pins with perst := false } }
  else
  ({ s.unbindAll with pins := { s.pins with perst := false }, pcie := {}, beats := s.beats.filter (!·.isHost),
                      chainReqs := s.chainReqs.filter fun r => match r.who with | .host _ => false | _ => true }).dropHost
/-- PERST_N rises: link training begins once READY0.AON is 1. -/
def State.perstRise (s : State) : State :=
  { s with pins := { s.pins with perst := true }, pcie := { s.pcie with training := bitOf (s.n0 0x7E00) 0 } }

end Sys2Proof.Machine
end

