-- ==== Sys2Proof/Machine/Commit.lean ====
section
/-!
DEFINITION. Machine/Commit.lean: timed commit (R247 to R251): the coordinator, the conditions of Table 8-6 with the transition
rules of R412 to R422, the authority of R405 and R406, and the application of a change (R250, R419, R427, R428).
-/
namespace Sys2Proof.Machine

/-! ## Units and sets -/

abbrev UnitId := Fin 108

/-- The engine or the die that a unit number names (R247). -/
def unitEng (u : UnitId) : Option EngineId := if h : u.val < 100 then some ⟨u.val, h⟩ else none
def unitDie (u : UnitId) : Option DieId := if h : 100 ≤ u.val then some ⟨u.val - 100, by omega⟩ else none

/-- The units of four words of TC_SET or TC_GRP. -/
def State.unitSet (s : State) (port : Nat) : List UnitId :=
  (List.finRange 108).filter fun u => bitOf (s.n0 (port + 4 * (u.val / 32))) (u.val % 32)

/-- Fields of the action (TC_CTL). -/
def tcMode (c : Word) : Nat := fld c 27 24
def tcSwap (c : Word) : Bool := bitOf c 23
def tcEntry (c : Word) : Nat := fld c 22 21
def tcSlot (c : Word) : Bool := bitOf c 20
def tcLead (c : Word) : Nat := max 16 (fld c 15 0)
def tcTarget (c : Word) : Option (Fin 12) := if h : tcMode c < 12 then some ⟨tcMode c, h⟩ else none

/-- D: T less LEAD reference periods (R248). -/
def Coord.deadline (x : Coord) : Dword := x.time - BitVec.ofNat 64 (tcLead x.ctl * 65536)

/-! ## The coordinator's state -/

/-- TC_STAT.REASON, FAIL_DEV and FAIL_UNIT set. -/
def State.tcReason (s : State) (r dev unit : Nat) : State :=
  s.n0Mod 0x5430 fun v => (v &&& 0x00800000#32) ||| at32 24 r ||| at32 7 dev ||| at32 0 unit

/-- The agent leaves the armed state: line 5 on every engine and host vector 5 (R371, R448). -/
def State.tcLeave (s : State) (st : Nat) : State :=
  let was := s.coord.st
  let s := { s with coord := { s.coord with st := st } }
  if was = 1 then (s.lineAll 5).msi 5 else s

/-- A COMMIT packet (R312). -/
def State.commitPkt (s : State) (sub dev unit : Nat) : Packet :=
  let x := s.coord
  s.vc0 6 [at32 16 x.seq ||| at32 0 sub, x.ctl &&& 0x0FFFFFFF#32, x.time.setWidth 32, BitVec.ofNat 32 (x.time.toNat / 2 ^ 32),
    at32 9 unit ||| at32 0 dev, 0, 0, 0]

/-- Units of the set from which an abort removes the arm: the ABORT is on its way to each (R248). -/
def State.tcAbortUnits (s : State) : State :=
  { s with coord := { s.coord with
      toUnit := (s.coord.toUnit.filter fun (m : Fin 108 × TcMsg) => m.2 ≠ TcMsg.arm) ++ s.coord.units.map fun u => (u, TcMsg.abort s.coord.seq) } }

/-- Abort with a reason: ABORT to the units and down the tree (R248, Table 8-7). -/
def State.tcAbort (s : State) (r dev unit : Nat) : State :=
  let s := s.tcReason r dev unit
  let s := s.floodPkt (fun p => s.coord.down.contains p) (s.commitPkt 4 0 0)
  (s.tcAbortUnits).tcLeave 3

/-- The first unit of a set outside the authority of the writer (R405). -/
def State.tcForeign (s : State) (a : Access) (units : List UnitId) : Option UnitId :=
  units.find? fun u =>
    match unitEng u with
    | some e => !(a.host && a.root) && s.world e ≠ a.world
    | none => !(a.host && a.root) && a.world = .H

/-- The units of TC_GRP that a commit with SCOPE = 1 may not name (R405). -/
def State.grpForeign (s : State) : Option UnitId :=
  (s.unitSet 0x5420).find? fun u => match unitEng u with | some e => s.world e = .H | none => false

/-- Everything has acknowledged: the local units and the ports below. -/
def Coord.complete (x : Coord) : Bool :=
  x.units.all (fun u => x.acked.contains u) && x.down.all (fun p => x.downAcked.contains p)

/-- A package armed from upstream acknowledges once all its units and the packages below have (R247). -/
def State.tcUpAck (s : State) : State :=
  let x := s.coord
  match x.up with
  | some p =>
    if x.st = 1 && !x.own && !x.ackSent && x.complete then
      ({ s with coord := { x with ackSent := true } }).sendPkt p (s.commitPkt 2 0 0)
    else s
  | none => s

/-- Arm the package: the ARM is on its way to each local unit, and leaves on each port below where the scope is the tree. -/
def State.tcArm (s : State) (x : Coord) (units : List UnitId) (tree : Bool) : State :=
  let down := if tree then (List.finRange 4).filter s.childPort else []
  let s := { s with coord := { x with
    st := 1, units := units, acks := [], naks := [], acked := []
    toUnit := (s.coord.toUnit.filter fun (m : Fin 108 × TcMsg) => m.2 ≠ TcMsg.arm) ++ units.map (fun u => (u, TcMsg.arm)),
    down := down, downAcked := [], ackSent := false } }
  (s.floodPkt (fun p => down.contains p) (s.commitPkt 1 0 0)).tcUpAck

/-- T less TIM_NOW is at most LEAD + 16 periods (R248). -/
def State.tcTooClose (s : State) (t : Dword) (lead : Nat) : Bool :=
  timeReached t (s.timNow + BitVec.ofNat 64 ((lead + 16) * 65536))

/-- A write of TC_CTL: the fields are stored, LEAD below 16 as 16; GO starts the protocol (R248, R251, R405). A write of GO = 1 while
armed is ignored whole: none of its fields is stored (DEDUCED, log 105). -/
def State.tcWrite (s : State) (a : Access) (v : Word) : State :=
  let nv := setFld (v &&& 0x4FF0FFFF#32) 15 0 (tcLead v)
  if bitOf v 31 && s.coord.st = 1 then s.n0Mod 0x5430 (setBit · 23 true)
  else
  let s := s.n0Put 0x5400 nv
  if !(bitOf v 31) then s
  else
    let scope := bitOf v 30
    let t : Dword := BitVec.ofNat 64 ((s.n0 0x5418).toNat * 2 ^ 32 + (s.n0 0x5414).toNat)
    let units := s.unitSet (if scope then 0x5420 else 0x5404)
    let own := s.devId
    let x : Coord := { st := 0, seq := (s.coord.seq + 1) % 65536, own := true, scope := scope, time := t, ctl := nv }
    let fail (r dev unit : Nat) : State :=
      { s.tcReason r dev unit with coord := { s.coord with st := 3, own := true, units := [], down := [] } }
    if decide (12 ≤ tcMode v) && decide (tcMode v ≤ 14) then fail 5 own 127
    else if s.tcTooClose t (tcLead v) then fail 4 own 127
    else if scope && !(a.host && a.root) && a.world = .H then fail 1 own 127
    else
      match (if scope then s.grpForeign else s.tcForeign a units) with
      | some u => fail 1 own u.val
      | none => (s.n0Mod 0x5430 (· &&& 0x00800000#32)).tcArm x units scope

/-! ## Conditions (Table 8-6) -/

/-- The mode that a unit will have at T under the present commit. -/
def State.modeAtT (s : State) (u : UnitId) (now : Fin 12) : Fin 12 :=
  if s.coord.units.contains u then (tcTarget s.coord.ctl).getD now else now

/-- The reset of MD11's reason persists (R422). -/
def State.stuck11 (s : State) (e : Option EngineId) : Bool :=
  !s.pins.halt || s.tripped ||
    (match e with | some e => fld (s.ioGet e 0x8D8) 3 0 == 15 | none => false)

/-- Whether the transition matrix and the conditions of the target mode admit an engine (R417, R418, R230, R406, R96). A commit into
the present mode is acknowledged whatever Heliotrope's state: R418 says so of every unit, where R230 and Table 8-6 speak of a
commit into a deterministic mode (DEDUCED, log 113). -/
def State.engModeOk (s : State) (e : EngineId) (t : Fin 12) : Bool :=
  let g := s.eng e
  let d := engDie e
  let dm := s.modeAtT ⟨100 + d.val, by omega⟩ (s.die d).mode
  let trig := g.world = .T
  if g.mode = 11 then (t = 0 || t = 10) && !(s.stuck11 (some e))
  else if t = g.mode then true
  else
    !(trig && determ t && !(s.helio.st = .aligned && (dm = 2 || dm = 9 || dm = 10))) &&
    !(trig && (t = 6 || t = 7) && !(bitOf (s.n0 (0x7650 + 4 * (e.val / 32))) (e.val % 32))) &&
    !(g.mode = 8 && t ≠ 8 && g.md8only g.activeB)

/-- Whether the start transition of an engine may be made (R419, R420, R96). -/
def Engine.startOk (g : Engine) (t : Fin 12) : Bool :=
  let b := g.startHalf
  g.accepted b && (!(g.md8only b) || t = 8) &&
    (!(bitOf (g.ioGet 0xB10) 31) || inHalf b (g.entryPc b (fld (g.ioGet 0xB10) 2 1)))

/-- Whether a target mode makes the transition a start (Table 14-3). -/
def Engine.isStart (g : Engine) (m : Option (Fin 12)) : Bool :=
  (g.mode = 0 || g.mode = 10) && (m.any runningMode)

/-- Whether a program swap may be made: the other half is accepted (R94, R96). Whether a commit that itself enters MD8 may make an
MD8ONLY half active the manual does not say; the mode after the commit decides here, and at a start (DESIGN CHOICE, log 77). -/
def Engine.swapOk (g : Engine) (m : Option (Fin 12)) : Bool :=
  g.accepted (!g.activeB) && (!(g.md8only (!g.activeB)) || (m.getD g.mode) = 8)

/-- A program condition of a change fails: that of a swap, or of a start (R94, R96, R420). -/
def Engine.programBad (g : Engine) (m : Option (Fin 12)) (swap : Bool) : Bool :=
  (swap && !(g.swapOk m)) || (g.isStart m && !swap && !(m.any g.startOk))

/-- A change that engine e cannot acknowledge (Table 8-6, R377, R424). -/
def State.engUnfit (s : State) (e : EngineId) (m : Option (Fin 12)) (swap slotsw : Bool) (time : Dword) : Bool :=
  let g := s.eng e
  g.clearing ≠ 0 || !(s.engReady e) || (g.mode = 11 && (m.isNone || swap)) ||
    (match m with | some t => !(s.engModeOk e t) | none => false) ||
    g.programBad m swap || (slotsw && !(onFrame time))
/-- An engine refuses an ARM. -/
def State.engNak (s : State) (e : EngineId) : Bool :=
  s.engUnfit e (tcTarget s.coord.ctl) (tcSwap s.coord.ctl) (tcSlot s.coord.ctl) s.coord.time

/-- The refusal is one of a start or a swap, which STATUS records (R94, R420). -/
def State.engRefused (s : State) (e : EngineId) : Bool :=
  (s.eng e).programBad (tcTarget s.coord.ctl) (tcSwap s.coord.ctl)

/-- The entries of a map bank: a permutation that keeps every logical number in its world (R427). -/
def State.mapOk (s : State) (d : DieId) (b : Bool) : Bool :=
  let n := if isGecko d then 16 else 2
  let at_ (b : Bool) (j : Nat) : Nat := fld (s.dGet d (0x7D40 + 8 * b2n b + 4 * (j / 8))) (4 * (j % 8) + 3) (4 * (j % 8))
  let world (b : Bool) (j : Nat) : Option World := (engOf d (at_ b j)).map s.world
  (List.range n).all (fun i => (List.range n).any fun j => at_ b j == i) &&
    (List.range n).all fun j => world b j = world (s.die d).active j

/-- A change that die d cannot acknowledge (R416, R418, R422, R427). -/
def State.dieUnfit (s : State) (d : DieId) (m : Option (Fin 12)) (slotsw : Bool) (time : Dword) : Bool :=
  let x := s.die d
  let gecko := isGecko d
  let modeBad (t : Fin 12) : Bool :=
    if x.mode = 11 then !(((t = 0 && gecko) || (t = 10 && !gecko)) && !(s.stuck11 none))
    else if t = x.mode then false
    else
      !(t = 1 || t = 2 || t = 9 || t = 11 || (t = 0 && gecko) || (t = 10 && !gecko)) ||
        (t = 10 && !(x.mode = 2 || x.mode = 9))
  (match m with
   | some t => modeBad t ||
      (t = 0 && gecko && !((dieEngines d).all fun e => s.modeAtT ⟨e.val, by omega⟩ (s.eng e).mode = 0))
   | none => x.mode = 11) ||
    (slotsw && (!(onFrame time) || !(s.mapOk d (!x.active)))) ||
    (gecko && !(fld (s.n0 0x7E00) (24 + d.val) (24 + d.val) == 1))
/-- A die refuses an ARM. -/
def State.dieNak (s : State) (d : DieId) : Bool :=
  s.dieUnfit d (tcTarget s.coord.ctl) (tcSlot s.coord.ctl) s.coord.time

/-- The arm that a unit holds from an ARM. -/
def State.newArm (s : State) : Arm :=
  let c := s.coord.ctl
  { seq := s.coord.seq, time := s.coord.time, mode := tcTarget c, swap := tcSwap c, entry := tcEntry c,
    slotsw := tcSlot c, acked := false, remote := !s.coord.own }

/-- An engine leaves a throughput mode: it wakes its vector unit (R156, R157). -/
def Engine.bringAbout (g : Engine) (m : Option (Fin 12)) : Engine :=
  if throughput g.mode && (m.any fun t => !(throughput t)) && g.vpwr = .asleep then { g with vpwr := .waking, vwake := 96 }
  else g

/-- Whether every condition holds that an armed engine brings about itself: the store buffer is empty before any mode but MD4, MD5
and MD7 (R184), and the vector unit awake before a throughput mode is left (R157). -/
def Engine.armReady (g : Engine) (a : Arm) : Bool :=
  !(a.mode.any fun t => !(throughput t)) || (g.sbuf.isEmpty && (!(throughput g.mode) || g.vpwr = .on))

/-- An ARM reaches a unit of the package: a NAK leaves, or the unit is armed (R248). -/
def State.armUnit (s : State) (u : UnitId) : State :=
  if s.coord.st = 1 && s.coord.toUnit.contains (u, .arm) then
    let s := { s with coord := { s.coord with toUnit := s.coord.toUnit.filter (· ≠ (u, .arm)) } }
    let nak (t : State) : State := { t with coord := { t.coord with naks := t.coord.naks ++ [u] } }
    match unitEng u, unitDie u with
    | some e, _ =>
      if s.engNak e then
        nak (if s.engRefused e then s.modEng e (·.startStatus 2) else s)
      else s.modEng e fun g => (g.bringAbout (tcTarget s.coord.ctl)).holdArm s.newArm
    | none, some d =>
      if s.dieNak d then nak s else s.modDie d (·.holdArm s.newArm)
    | none, none => s
  else s

/-- A COMMIT packet as R312 lays it out, with this SUB: 1 ARM, 2 ACK, 3 NAK, 4 ABORT. -/
def commitIs (k : Packet) (sub : Nat) : Bool := pktGood k && k.data.length == 8 && fld (k.data.getD 0 0) 3 0 == sub

/-- An ARM from upstream: refused while the package is armed or its group names a unit it may not (R251, R405). -/
def State.armPort (s : State) (p : PortId) (k : Packet) : State :=
  let w (i : Nat) : Word := k.data.getD i 0
  if !(commitIs k 1) || s.upPort ≠ some p then s
  else
    let nak (unit : Nat) : State :=
      let k' := s.vc0 6 [setFld (w 0) 3 0 3, w 1, w 2, w 3, at32 9 unit ||| at32 0 s.devId, 0, 0, 0]
      s.sendPkt p k'
    if s.coord.st = 1 then nak 127
    else match s.grpForeign with
      | some u => nak u.val
      | none =>
        let x : Coord := { seq := fld (w 0) 31 16, own := false, scope := true, ctl := w 1,
                           time := BitVec.ofNat 64 ((w 3).toNat * 2 ^ 32 + (w 2).toNat), up := some p }
        (s.n0Mod 0x5430 (· &&& 0x00800000#32)).tcArm x (s.unitSet 0x5420) true

/-- A unit for which every condition holds sends its ACK; one whose conditions have ceased to hold since its ARM sends none
(R248, R230). -/
def State.unitAck (s : State) (u : UnitId) : State :=
  let send (t : State) : State := { t with coord := { t.coord with acks := t.coord.acks ++ [u] } }
  match unitEng u, unitDie u with
  | some e, _ =>
    match (s.eng e).arm with
    | some a =>
      if !a.acked && (s.eng e).armReady a && !(s.engUnfit e a.mode a.swap a.slotsw a.time) then
        send (s.modEng e fun g => { g with arm := some { a with acked := true } })
      else s
    | none => s
  | none, some d =>
    match (s.die d).arm with
    | some a => if !a.acked && !(s.dieUnfit d a.mode a.slotsw a.time) then send (s.modDie d fun x => { x with arm := some { a with acked := true } }) else s
    | none => s
  | none, none => s

/-- A COMMIT packet of the present commit, with this SUB (R312). -/
def State.ofCommit (s : State) (k : Packet) (sub : Nat) : Bool := commitIs k sub && fld (k.data.getD 0 0) 31 16 == s.coord.seq

/-- An ACK reaches the agent. -/
def State.ackFrom (s : State) : CommitSrc → State
  | .unit u =>
    if s.coord.acks.contains u then
      { s with coord := { s.coord with acks := s.coord.acks.filter (· ≠ u), acked := s.coord.acked ++ [u] } }.tcUpAck
    else s
  | .port p k =>
    if s.ofCommit k 2 && s.coord.down.contains p && !(s.coord.downAcked.contains p) then
      { s with coord := { s.coord with downAcked := s.coord.downAcked ++ [p] } }.tcUpAck
    else s

/-- A NAK reaches the agent: the coordinator aborts, any other package passes it on (R248). -/
def State.nakWith (s : State) (dev unit : Nat) : State :=
  if s.coord.st ≠ 1 then s
  else if s.coord.own then s.tcAbort 1 dev unit
  else match s.coord.up with
    | some p => s.sendPkt p (s.commitPkt 3 dev unit)
    | none => s
def State.nakFrom (s : State) : CommitSrc → State
  | .unit u =>
    if s.coord.naks.contains u then
      { s with coord := { s.coord with naks := s.coord.naks.filter (· ≠ u) } }.nakWith s.devId u.val
    else s
  | .port p k =>
    if s.ofCommit k 3 && s.coord.down.contains p then s.nakWith (fld (k.data.getD 4 0) 8 0) (fld (k.data.getD 4 0) 15 9) else s

/-- The sequence number of an ABORT. -/
def TcMsg.aborts : TcMsg → Option Nat
  | .abort n => some n
  | .arm => none
/-- The first ABORT on its way to a unit. -/
def State.abortFor (s : State) (u : UnitId) : Option Nat :=
  s.coord.toUnit.findSome? fun m => if m.1 = u then m.2.aborts else none
/-- An ABORT of commit n reaches an engine or a die: before it applied that commit, the arm is discarded; after, the unit enters
MD11; a unit that holds no arm of that commit changes nothing (R248, Table 8-7). -/
def Engine.aborted (g : Engine) (n : Nat) : Engine :=
  let h := { g with arm := g.arm.filter fun a => a.seq ≠ n, armed := g.armed.filter fun a => a.seq ≠ n }
  if g.arms.any fun a => a.seq == n && a.applied then h.quarantine 2 else h
def Die.aborted (x : Die) (n : Nat) : Die :=
  let y := { x with arm := x.arm.filter fun a => a.seq ≠ n, armed := x.armed.filter fun a => a.seq ≠ n }
  if x.arms.any fun a => a.seq == n && a.applied then y.quarantine 2 else y
/-- An ABORT reaches a unit. -/
def State.abortUnit (s : State) (u : UnitId) : State :=
  match s.abortFor u with
  | some n =>
    let s := { s with coord := { s.coord with toUnit := delFirst (fun m => m == (u, .abort n)) s.coord.toUnit } }
    match unitEng u, unitDie u with
    | some e, _ => s.modEng e (·.aborted n)
    | none, some d => s.modDie d (·.aborted n)
    | none, none => s
  | none => s
/-- The units that hold an arm of commit n that came from upstream. -/
def State.armedFor (s : State) (n : Nat) : List UnitId :=
  let of (l : List Arm) : Bool := l.any fun a => a.seq == n && a.remote
  (List.finRange 108).filter fun u =>
    match unitEng u, unitDie u with
    | some e, _ => of (s.eng e).arms
    | none, some d => of (s.die d).arms
    | none, none => false
/-- An ABORT of an earlier commit than the agent's present one: it is on its way to the units that hold its arm, and travels on down
the time tree; TC_STAT, which tells of the present commit, stays (R248). -/
def State.lateAbort (s : State) (k : Packet) (n : Nat) : State :=
  let s := { s with coord := { s.coord with toUnit := s.coord.toUnit ++ (s.armedFor n).map fun u => (u, TcMsg.abort n) } }
  s.floodPkt (fun p => s.childPort p) (s.vc0 6 k.data)
/-- An ABORT reaches the package from upstream (Table 8-7, reason 3) and travels on; FAIL_DEV is the package that sent it (DESIGN
CHOICE, log 29). -/
def State.abortFrom (s : State) : CommitSrc → State
  | .unit u => s.abortUnit u
  | .port p k =>
    let n := fld (k.data.getD 0 0) 31 16
    if !(commitIs k 4) then s
    else if s.coord.seq = n && !s.coord.own then
      (if s.coord.up = some p && (s.coord.st = 1 || s.coord.st = 2) then s.tcAbort 3 (fld k.src 8 0) 127 else s)
    else if s.upPort = some p then s.lateAbort k n
    else s

/-- The deadline D: an acknowledgement missing aborts, else the commit stands (R248). Where that of a subtree is missing, no package
is known to have failed, and FAIL_DEV is the own one (DESIGN CHOICE, log 29). -/
def State.ackDeadline (s : State) : State :=
  if s.coord.st = 1 && timeReached s.coord.deadline s.timNow then
    if s.coord.own then
      if s.coord.complete then s.tcLeave 2
      else
        match s.coord.units.find? fun u => !(s.coord.acked.contains u) with
        | some u => s.tcAbort 2 s.devId u.val
        | none => s.tcAbort 2 s.devId 127
    else if s.coord.ackSent then s.tcLeave 2 else s
  else s

/-! ## Application at T (R250) -/

/-- The change of an engine at T: it cannot be applied where a condition kept since the ACK is broken (R249), the acceptance and
MD8ONLY of the halves it names and leaves among them (R94, R96). -/
def State.engBroken (s : State) (e : EngineId) (a : Arm) : Bool :=
  let g := s.eng e
  a.broken || g.mode = 11 && !(a.mode = some 0 || a.mode = some 10) ||
    (g.world = .T && (a.mode.any fun t => determ t && t ≠ g.mode) && s.helio.st ≠ .aligned) ||
    g.programBad a.mode a.swap || (g.mode = 8 && (a.mode.any (· ≠ 8)) && g.md8only g.activeB)

/-- The mode part of a change. -/
def Engine.applyMode (g : Engine) (m : Option (Fin 12)) : Engine :=
  match m with
  | some t =>
    if t = g.mode then { g with slip := 0 }
    else if t = 11 then { g.quarantine 6 with slip := 0 }
    else
      let h := if g.mode = 11 then g.ioPut 0xB30 0 else g
      { h.setMode t with slip := 0 }
  | none => g

/-- A start at T (R419): at a staged entry, or at the held PC. -/
def Engine.applyStart (g : Engine) : Engine :=
  let v := g.ioGet 0xB10
  let b := bitOf v 0
  let h := if bitOf v 31 then g.startAt b (g.entryPc b (fld v 2 1))
    else { g with everRun := true, slip := 0, cycleOpen := true, activeB := halfOf g.pc }
  h.startStatus 1

/-- The swap part of a change: the other half starts at the named entry (R250). -/
def Engine.applySwap (g : Engine) (k : Nat) : Engine := g.startAt (!g.activeB) (g.entryPc (!g.activeB) k)

/-- An engine applies its armed change. -/
def State.applyEng (s : State) (e : EngineId) (a : Arm) : State :=
  if s.engBroken e a then s.modEng e fun g => (g.quarantine 2).modArms (Arm.done a.seq)
  else
    s.modEng e fun g =>
      let start := g.isStart a.mode
      let h := if a.swap then g.applySwap a.entry else if start then g.applyStart else g
      let h := if a.swap && start then h.startStatus 1 else h
      (h.applyMode a.mode).modArms (Arm.done a.seq)

/-- A standby engine in MD10 that the new map gives another logical number, and that stays in MD10, is reset (R428). -/
def State.standby (s : State) (d : DieId) (old : Nat → Option EngineId) : State :=
  forAll (dieEngines d) s fun e t =>
    let g := t.eng e
    let moved := (List.range 16).any fun j => old j = some e && t.physEng d j ≠ some e
    let leaves := g.arms.any fun a => a.waits && (a.mode.any fun m => m ≠ 10)
    if g.mode = 10 && moved && !leaves then t.modEng e fun g => g.masterReset.clearState else t

/-- A Newt enters MD10: DONE clears and the lanes of the quad under maintenance retrain (R426). -/
def State.maintain (s : State) (d : DieId) : State :=
  let s := s.dMod d 0x7D04 (setBit · 31 false)
  let q := fld (s.dGet d 0x7D04) 4 0
  let s := forAll (List.finRange 144) s fun l t =>
    if laneDie l = d && (laneQuad l).val % 18 == q && !(t.masked l) && qEN (t.laneCfg l) then t.modLane l (·.retrain) else t
  s.maintDone d

/-- A die applies its armed change: the mode, then the slot and map banks (R245, R427). -/
def State.applyDie (s : State) (d : DieId) (a : Arm) : State :=
  let x := s.die d
  if a.broken || (x.mode = 11 && a.mode ≠ some 0 && a.mode ≠ some 10) then
    s.modDie d fun x => (x.quarantine 2).modArms (Arm.done a.seq)
  else
    let old : Nat → Option EngineId := s.physEng d
    let s := s.modDie d fun x =>
      let y := match a.mode with
        | some t => if t = x.mode then x else if t = 11 then x.quarantine 6 else { x with mode := t, qreason := 0 }
        | none => x
      { y.modArms (Arm.done a.seq) with active := if a.slotsw then !y.active else y.active }
    let s := if a.slotsw then s.standby d old else s
    if a.mode = some 10 && x.mode ≠ 10 then s.maintain d else s

/-- A unit at the first edge of its clock at or after T. -/
def State.commitApply (s : State) (u : UnitId) : State :=
  match unitEng u, unitDie u with
  | some e, _ =>
    match dueArm (s.eng e).arms (s.engEdge e) with
    | some a => s.applyEng e a
    | none => s
  | none, some d =>
    match dueArm (s.die d).arms s.timNow with
    | some a => s.applyDie d a
    | none => s
  | none, none => s

/-- TC_STAT as read. -/
def State.tcStat (s : State) : Word := (s.n0 0x5430 &&& 0x3FFFFFFF#32) ||| at32 30 s.coord.st

end Sys2Proof.Machine
end

