-- ==== Sys2Proof/Machine/Bfu.lean ====
section
/-!
DEFINITION. Machine/Bfu.lean: the bit-field operations (R113, R114, Table 4-4).
-/
namespace Sys2Proof.Machine

/-- Bit-field operations in opcode order, 0 to 8 (Table 4-4). -/
inductive BfuOp where
  | ext | exts | ins | clz | ctz | popc | bswap | brev | perm
deriving DecidableEq, Repr

/-- The bit-field operation of an opcode (Table 4-4). -/
def bfuOfCode (n : Nat) : Option BfuOp :=
  [BfuOp.ext, .exts, .ins, .clz, .ctz, .popc, .bswap, .brev, .perm][n]?

/-- The opcode of a bit-field operation (Table 4-4). -/
def BfuOp.code : BfuOp → Nat
  | .ext => 0 | .exts => 1 | .ins => 2 | .clz => 3 | .ctz => 4 | .popc => 5 | .bswap => 6 | .brev => 7
  | .perm => 8

/-- POS of the control word: b[4:0] (R113). -/
def bfuPos (b : Word) : Nat := b.toNat % 32
/-- Effective width min(WIDTH, 32 − POS), WIDTH = b[13:8] (R113). -/
def bfuWidth (b : Word) : Nat := min (fld b 13 8) (32 - bfuPos b)
/-- The field mask m = (2^w − 1) shifted left by POS (R113). -/
def bfuMask (b : Word) : Word := BitVec.ofNat 32 ((2 ^ bfuWidth b - 1) * 2 ^ bfuPos b)

/-- Number of 1 bits among the low n (R113). -/
def popCount {w : Nat} (x : BitVec w) : Nat → Nat
  | 0 => 0
  | n + 1 => popCount x n + b2n (bitOf x n)

/-- Leading zeros among the low n bits. -/
def leadZeros {w : Nat} (x : BitVec w) : Nat → Nat
  | 0 => 0
  | n + 1 => if bitOf x n then 0 else 1 + leadZeros x n

/-- Trailing zeros: the lowest set bit, or 32 (R113). -/
def trailZeros (x : Word) : Nat := (lowestBit x 32).getD 32

/-- The bits of x in reverse order, built from the low n. -/
def revBits (x : Word) : Nat → Nat
  | 0 => 0
  | n + 1 => 2 * revBits x n + b2n (bitOf x n)

/-- One result byte of perm: 0 where bit 3 of the nibble is 1, else the source byte it selects (R114). -/
def permByte (a c : Word) (nib : Nat) : Nat :=
  if 8 ≤ nib then 0
  else if nib < 4 then fld a (8 * nib + 7) (8 * nib) else fld c (8 * (nib - 4) + 7) (8 * (nib - 4))

/-- The result of a bit-field operation on ports a, b and c (R113, R114). -/
def bfuEval : BfuOp → Word → Word → Word → Word
  | .ext, a, b, _ => BitVec.ofNat 32 ((a.toNat / 2 ^ bfuPos b) % 2 ^ bfuWidth b)
  | .exts, a, b, _ =>
    let w := bfuWidth b
    let x := (a.toNat / 2 ^ bfuPos b) % 2 ^ w
    if w = 0 then 0#32
    else if x.testBit (w - 1) then BitVec.ofInt 32 ((x : Int) - 2 ^ w) else BitVec.ofNat 32 x
  | .ins, a, b, c => (a &&& ~~~(bfuMask b)) ||| ((c <<< bfuPos b) &&& bfuMask b)
  | .clz, _, b, _ => BitVec.ofNat 32 (leadZeros b 32)
  | .ctz, _, b, _ => BitVec.ofNat 32 (trailZeros b)
  | .popc, _, b, _ => BitVec.ofNat 32 (popCount b 32)
  | .bswap, _, b, _ => BitVec.ofNat 32 (leNat (leBytes 4 b.toNat).reverse)
  | .brev, _, b, _ => BitVec.ofNat 32 (revBits b 32)
  | .perm, a, b, c =>
    BitVec.ofNat 32 (permByte a c (fld b 3 0) + 256 * permByte a c (fld b 7 4)
      + 65536 * permByte a c (fld b 11 8) + 16777216 * permByte a c (fld b 15 12))

/-- Latency: 1 ec, perm 2 ec (R114). -/
def BfuOp.latency : BfuOp → Nat
  | .perm => 2
  | _ => 1

end Sys2Proof.Machine
end

