-- ==== Sys2Proof/Machine/Fox.lean ====
section
/-!
DEFINITION. Machine/Fox.lean: the pattern associator of a Gecko (R252 to R270): hit input, contexts, matching, road output,
segments and scrubbing.
-/
namespace Sys2Proof.Machine

/-! ## Registers -/

/-- Value of a Foxglove register in force in fabric cycle n: a write is in force from its due cycle on (R260). -/
def State.foxVal (s : State) (g : GeckoId) (port n : Nat) : Word :=
  match s.fox[g].late.find? (fun p => p.2.1 == port && decide (n < p.1)) with
  | some p => p.2.2
  | none => s.dGet (geckoDie g) port

/-- Value that a sampling point in the present fabric cycle sees: not a write that takes effect in it (R260). -/
def State.foxSample (s : State) (g : GeckoId) (port : Nat) : Word := s.foxVal g port (s.fc - 1)

/-- Store a Foxglove register; the value takes effect 2 fc later (R260). -/
def State.foxPut (s : State) (g : GeckoId) (port : Nat) (v : Word) : State :=
  let old := s.dGet (geckoDie g) port
  (s.modFox g fun x =>
    { x with late := x.late.filter (fun p => decide (s.fc ≤ p.1)) ++ [(s.fc + 2, port, old)] }).dPut (geckoDie g) port v

/-- FOX_DEAD.AUTO in fabric cycle n: a layer of which a fed lane is retired, by the feeds then in force (R260, R262). -/
def State.foxAuto (s : State) (g : GeckoId) (n : Nat) : Nat :=
  sumNat ((List.range 8).map fun l =>
    let feed := sumNat ((List.range 5).map fun k => (s.foxVal g (0x6100 + 0x20 * l + 4 * k) n).toNat * 2 ^ (32 * k))
    if feed &&& s.chanMask.toNat = 0 then 0 else 2 ^ l)

/-- FOX_DEAD.EFF in fabric cycle n (R262). -/
def State.foxEff (s : State) (g : GeckoId) (n : Nat) : Nat := fld (s.foxVal g 0x6008 n) 7 0 ||| s.foxAuto g n

/-- The bits of FOX_STAT and FOX_SEGSTAT that register writes clear or set by the present fabric cycle (R260). -/
def foxMarks : List (Nat × Nat × Word × Word) → State → GeckoId → State
  | [], s, g => s.modFox g fun x => { x with marks := [] }
  | (t, p, clr, set) :: l, s, g =>
    if t ≤ s.fc then foxMarks l (s.dMod (geckoDie g) p fun v => (v &&& ~~~clr) ||| set) g
    else s.modFox g fun x => { x with marks := (t, p, clr, set) :: l }
def State.foxMarked (s : State) (g : GeckoId) : State :=
  if s.fox[g].marks.isEmpty then s else foxMarks s.fox[g].marks s g
/-- A write of 1 bits to W1C bits of FOX_STAT or FOX_SEGSTAT: they clear 2 fc later, before what sets bits in that fabric cycle
(R10, R260). -/
def State.foxClear (s : State) (g : GeckoId) (port : Nat) (bits : Word) : State :=
  let s := s.foxMarked g
  let due := s.fc + 2
  s.modFox g fun x => { x with
    marks := x.marks.filter (fun m => m.1 ≠ due) ++ (due, port, bits, 0) :: x.marks.filter (fun m => m.1 = due) }
/-- Set bits of FOX_STAT; a clearing of the present fabric cycle comes first. -/
def State.foxFlag (s : State) (g : GeckoId) (bit : Nat) : State :=
  (s.foxMarked g).dMod (geckoDie g) 0x6004 (setBit · bit true)

/-! ## Contexts and matching -/


/-- Contexts in use: one is freed in the fc after its last word is formed (R258), and that of an open event is discarded where EN
has become 0 (FOX_CTL). -/
def State.foxCtxs (s : State) (g : GeckoId) : List FoxCtx :=
  let x := s.fox[g]
  x.ctxs.filter fun c =>
    !(c.out == some [] && decide (x.lastOut < s.fc)) && !(c.out.isNone && x.drops.any fun t => decide (t ≤ s.fc))

/-- The open context, if an event is open. -/
def openCtx (l : List FoxCtx) : Option FoxCtx := l.find? fun c => c.out.isNone

/-- Element l of a pattern record (R253). -/
def patElem (r : W256) (l : Nat) : Nat := (r.toNat >>> (16 * l)) % 65536

/-- Whether an element matches superstrip h: the low DC bits are ignored (R254). -/
def elemMatches (el h : Nat) : Bool := (h >>> (el / 8192)) == ((el % 8192) >>> (el / 8192))

/-- HITMASK of a record for the hits of an event (R261). -/
def hitMask (r : W256) (hits : List (Nat × Nat)) : Nat :=
  sumNat ((List.range 8).map fun l => if hits.any (fun p => p.1 == l && elemMatches (patElem r l) p.2) then 2 ^ l else 0)

/-- Number of 1 bits of an 8-bit mask. -/
def pop8 (m : Nat) : Nat := sumNat ((List.range 8).map fun l => (m >>> l) % 2)

/-- Segment of a pattern. -/
def patSeg (p : Nat) : Nat := p / 4096

/-- A 128-bit road-output word from its four words (Table 9-4). -/
def roadWord (w0 w1 w2 : Nat) : BitVec 128 := BitVec.ofNat 128 (w0 + w1 * 2 ^ 32 + w2 * 2 ^ 64)

/-- The qualifying patterns of an event in ascending order: index, HITMASK, NMATCH, ATTR (R261). -/
def qualifying (x : Fox) (c : FoxCtx) (dead thresh : Nat) : List (Nat × Nat × Nat × Nat) :=
  x.array.filterMap fun (p, r) =>
    let m := hitMask r c.hits
    let n := pop8 (m ||| dead)
    if bitOf c.segon (patSeg p) && !(x.excluded.contains p) && r.toNat.testBit 160 && decide (thresh ≤ n) then
      some (p, m, n, (r.toNat >>> 128) % 2 ^ 32)
    else none

/-- The output words of an event (R263, R264), and whether roads were withheld. -/
def roadOutput (x : Fox) (c : FoxCtx) (tag dead thresh rlim : Nat) : List (BitVec 128) × Bool :=
  let all := qualifying x c dead thresh
  let kept := all.take rlim
  let ovf := decide (rlim < all.length)
  let roads := kept.map fun (p, m, n, a) =>
    roadWord (p + m * 2 ^ 16 + n * 2 ^ 24 + 2 ^ 30) (tag + dead * 2 ^ 16) a
  let eor := roadWord (kept.length + b2n ovf * 2 ^ 16 + 2 ^ 31) (tag + dead * 2 ^ 16 + c.segon.toNat * 2 ^ 24) thresh
  let out : List (BitVec 128) := roads ++ [eor]
  (if out.length % 2 = 1 then out ++ [0] else out, ovf)

/-! ## Hit input -/

/-- Queue the words of a write in fabric cycle w (R257). -/
def foxQueue (x : Fox) (ws : W256) (strobe : Word) (w : Nat) : Fox :=
  { x with queue := x.queue ++ (List.range 8).map fun j =>
      ((ws >>> (32 * j)).setWidth 32, (strobe.toNat >>> (4 * j)) % 16 == 15, w + 2 + j / 2) }

/-- Writes held at the target port enter the queue while 8 entries are free (R257). They do so with FOX_CTL.EN = 0 too, and queued
words are then still applied: the manual has EN = 0 discard the open event only (DESIGN CHOICE, log 107). -/
def foxAdmit : List (W256 × Word × Option Waiter) → State → GeckoId → State
  | [], s, g => s.modFox g fun x => { x with waiting := [] }
  | (ws, st, who) :: rest, s, g =>
    if s.fox[g].queue.length + 8 ≤ 32 then
      foxAdmit rest ((s.modFox g fun x => foxQueue x ws st s.fc).fabDone who (.ok 0)) g
    else s.modFox g fun x => { x with waiting := (ws, st, who) :: rest }

/-- A write of 32 bytes to the hit input: a bus error with EN = 0, else queued, or held where fewer than 8 entries are free
(R257, FOX_CTL). -/
def State.foxHits (s : State) (g : GeckoId) (ws : W256) (strobe : Word) (who : Option Waiter) : State × Resp :=
  if !(bitOf (s.foxVal g 0x6000 s.fc) 31) then (s, .bus 1)
  else if s.fox[g].waiting.isEmpty && decide (s.fox[g].queue.length + 8 ≤ 32) then
    (s.modFox g fun x => foxQueue x ws strobe s.fc, .ok 0)
  else (s.modFox g fun x => { x with waiting := x.waiting ++ [(ws, strobe, who)] }, .held)

/-- The word at the front of the queue, where it may be applied in the present fabric cycle: two words a cycle, none before
its own cycle (R257). -/
def foxFront (x : Fox) (fc : Nat) : Option (Word × Bool) :=
  match x.queue with
  | (w, full, t) :: _ =>
    if fc < t || (x.lastApply == fc && decide (2 ≤ x.applied)) then none else some (w, full)
  | [] => none

/-- The kind of a hit-input word (R256): a word without all four strobes is null. -/
def hitKind (w : Word) (full : Bool) : Nat := if full then fld w 31 30 else 0

/-- The front word leaves the queue, and held writes follow. -/
def State.foxPop (s : State) (g : GeckoId) : State :=
  let s' := s.modFox g fun x =>
    { x with queue := x.queue.tail, applied := if x.lastApply = s.fc then x.applied + 1 else 1, lastApply := s.fc }
  foxAdmit s'.fox[g].waiting s' g

/-- Segments that drain: offline, and sampled as online by a context in use (R269). -/
def State.foxDraining (s : State) (g : GeckoId) (i : Nat) : Bool :=
  !(bitOf s.fox[g].online i) && (s.foxCtxs g).any fun c => bitOf c.segon i

/-- Whether a segment is idle and offline (Table 9-6). -/
def State.segIdle (s : State) (g : GeckoId) (i : Nat) : Bool :=
  !(bitOf s.fox[g].online i) && !(bitOf s.fox[g].checking i) && !(s.foxDraining g i)

/-- Bit i of FOX_SEGCTL.ONREQ set: a segment that is idle and offline begins its check; one that drains ignores it (R268,
R269). -/
def State.segOn (s : State) (g : GeckoId) (i : Fin 8) : State :=
  if s.segIdle g i then
    (s.modFox g fun x => { x with checking := setBit x.checking i true, checkAt := x.checkAt.set i s.fc }).dMod
      (geckoDie g) 0x600C (setBit · i true)
  else s

/-- Bit i of ONREQ cleared: a check is abandoned, an online segment goes offline for contexts that open after the present fabric
cycle (R260, R268, R269). -/
def State.segOff (s : State) (g : GeckoId) (i : Fin 8) : State :=
  (s.modFox g fun x => { x with
      checking := setBit x.checking i false, online := setBit x.online i false,
      late := if bitOf x.online i then x.late.filter (fun p => decide (s.fc ≤ p.1)) ++ [(s.fc, 0x6010, at32 i 1)] else x.late }).dMod
    (geckoDie g) 0x600C (setBit · i false)

/-- A write of FOX_SEGCTL takes effect: each bit that changes is a request (R268, R269). -/
def State.segRequest (s : State) (g : GeckoId) (v : Word) : State :=
  forAll (List.finRange 8) s fun i t =>
    if bitOf v i && !(bitOf (t.dGet (geckoDie g) 0x600C) i) then t.segOn g i
    else if !(bitOf v i) && bitOf (t.dGet (geckoDie g) 0x600C) i then t.segOff g i
    else t
/-- The writes of FOX_SEGCTL that are due by the present fabric cycle take effect, each in its own (R260). -/
def segSync : List (Nat × Word) → State → GeckoId → State
  | [], s, g => s.modFox g fun x => { x with segReq := [] }
  | (t, v) :: l, s, g =>
    if t ≤ s.fc then segSync l { State.segRequest { s with fc := t } g v with fc := s.fc } g
    else s.modFox g fun x => { x with segReq := (t, v) :: l }
def State.foxSync (s : State) (g : GeckoId) : State :=
  let s := s.foxMarked g
  if s.fox[g].segReq.isEmpty then s else segSync s.fox[g].segReq s g

/-- The segments online in fabric cycle n (R260). -/
def State.foxOnline (s : State) (g : GeckoId) (n : Nat) : BitVec 8 :=
  s.fox[g].late.foldl (fun m p => if p.2.1 == 0x6010 && decide (n < p.1) then m ||| p.2.2.setWidth 8 else m) s.fox[g].online

/-- The Foxglove works: not with its clock gated in MD0, nor powered off in MD9, with EN = 0 and no context in use (Table 14-2). What
else a power-off takes from it the manual does not say: its registers and contents stay (DESIGN CHOICE, log 115). -/
def State.foxRuns (s : State) (g : GeckoId) : Bool :=
  !(s.foxGated g) && !((s.die (geckoDie g)).mode = 9 && !(bitOf (s.foxVal g 0x6000 s.fc) 31) && (s.foxCtxs g).isEmpty)

/-- Open a context where no event is open: none where four are in use (R258, R259, R260). -/
def State.foxOpen (s : State) (g : GeckoId) : Option State :=
  let cs := s.foxCtxs g
  let into (l : List FoxCtx) : State := s.modFox g fun x => { x with ctxs := l, drops := x.drops.filter fun t => decide (s.fc < t) }
  if (openCtx cs).isSome then some (into cs)
  else if cs.length < 4 then some (into (cs ++ [{ hits := [], segon := s.foxOnline g (s.fc - 1), out := none, ready := 0 }]))
  else none

/-- Apply the front word where it has the given kind: nothing where it has another one or may not be applied yet; a word that
would open a fifth context waits, and CTXHOLD records it (R259). -/
def State.foxApply (s : State) (g : GeckoId) (kind : Nat) (f : Word → State → State) : State :=
  let s := s.foxSync g
  if !(s.foxRuns g) then s
  else
  match foxFront s.fox[g] s.fc with
  | some (w, full) =>
    if hitKind w full = kind then
      if kind = 1 ∨ kind = 2 then
        match s.foxOpen g with
        | some t => f w (t.foxPop g)
        | none => s.foxFlag g 31
      else f w (s.foxPop g)
    else s
  | none => s

/-- A hit marks its layer in the open context (R254). -/
def foxHit (g : GeckoId) (w : Word) (s : State) : State :=
  s.modFox g fun x =>
    { x with ctxs := updFirst (fun c => c.out.isNone) (fun c => { c with hits := c.hits ++ [(fld w 18 16, fld w 12 0)] }) x.ctxs }

/-- An end marker closes the event: its roads are found and are formed from M + 64 on (R261, R264). -/
def foxEnd (g : GeckoId) (w : Word) (s : State) : State :=
  let ctl := s.foxSample g 0x6000
  let dead := s.foxEff g (s.fc - 1)
  let rlim := if fld ctl 27 16 = 0 then 4096 else fld ctl 27 16
  let x := s.fox[g]
  match openCtx x.ctxs with
  | none => s
  | some c =>
    let (out, ovf) := roadOutput x c (fld w 11 0) dead (fld ctl 11 8) rlim
    let s' := s.modFox g fun x =>
      { x with ctxs := updFirst (fun c => c.out.isNone) (fun c => { c with out := some out, ready := s.fc + 64 }) x.ctxs }
    if ovf then s'.foxFlag g 27 else s'

/-! ## Road output -/

/-- A pair of words on its way to queue q of engine e (R265, R320). -/
def roadBeat (e : EngineId) (q : Fin 16) (ws : List Word) : Beat :=
  { master := 0xC0, qos := 15, route := [(engDie e, 0x10 + engIndex e)], use := .push e q ws true }
/-- A push reaches its queue; a pair of the road output that is not taken holds it (R266). -/
def State.pushReach (s : State) (e : EngineId) (q : Fin 16) (ws : List Word) (road : Bool) : State :=
  match s.iqSend e q ws none road with
  | (s, true) => s
  | (s, false) => if h : road ∧ (engDie e).val < 6 then s.foxFlag ⟨(engDie e).val, h.2⟩ 30 else s
/-- The pair that the road output has sent is still on its way or held at its sink. -/
def State.roadOut (s : State) (g : GeckoId) : Bool :=
  (s.beats.any fun b => match b.use with | .push e _ _ r => r && engDie e = geckoDie g | _ => false) ||
    (List.range 16).any fun j => match engOf (geckoDie g) j with
      | some e => (s.eng e).iqHeld.any (·.road)
      | none => false
/-- Pairs of formed words go to the sink that FOX_RDEST names, one transaction at a time, or are discarded (R265; MD11, Table
14-2). A pair that its sink has not taken stays in the buffer and holds the output (R266). -/
def foxSend : Nat → State → GeckoId → State
  | 0, s, _ => s
  | n + 1, s, g =>
    match s.fox[g].buf with
    | a :: b :: rest =>
      let dest := s.foxVal g 0x6014 s.fc
      let next (s : State) : State := s.modFox g fun x => { x with buf := rest, holding := false }
      if !(bitOf dest 31) || (s.die (geckoDie g)).mode = 11 then foxSend n (next s) g
      else
        let e : EngineId := (s.physEng (geckoDie g) (fld dest 3 0)).getD 0
        let q : Fin 16 := ⟨fld dest 7 4 % 16, by omega⟩
        let s := match s.sendBeat (roadBeat e q (words8 (b ++ a))) with
          | (true, s) => s.pushReach e q (words8 (b ++ a)) true
          | (false, s) => s
        if s.roadOut g then s.modFox g fun x => { x with holding := true } else foxSend n (next s) g
    | _ => s.modFox g fun x => { x with holding := false }
/-- The sink has taken the pair that held the output: the next ones follow (R266). -/
def State.foxRelease (s : State) (g : GeckoId) : State :=
  if s.fox[g].holding && !(s.roadOut g) && !(s.foxGated g) then
    foxSend 32 (s.modFox g fun x => { x with buf := x.buf.drop 2, holding := false }) g
  else s

/-- Form the next output word of the oldest closed event: one per fc, from its ready cycle on, while the buffer of 64 words
has room (R264, R266). -/
def State.foxForm (s : State) (g : GeckoId) : State :=
  let s := s.foxSync g
  let cs := s.foxCtxs g
  let x := s.fox[g]
  match cs with
  | [] => s
  | c :: rest =>
    match c.out with
    | some (w :: ws) =>
      if s.foxGated g || s.fc < c.ready || decide (s.fc ≤ x.lastOut) || decide (64 ≤ x.buf.length) then s
      else
        let s' := s.modFox g fun x =>
          { x with ctxs := { c with out := some ws } :: rest, buf := x.buf ++ [w], lastOut := s.fc }
        let s' := if fld w 31 30 = 2 then s'.dMod (geckoDie g) 0x6004 (bumpFld · 15 0 1) else s'
        if x.holding || decide (s'.fox[g].buf.length % 2 = 1) then s' else foxSend 32 s' g
    | _ => s

/-! ## Segments -/

/-- Address of a pattern record in the local map (Table 1-4, R252). -/
def patAddr (g : GeckoId) (p : Nat) : Nat := 0x14000000 + g.val * 0x800000 + 32 * p

/-- The record of pattern p as the pattern memory holds it. -/
def State.patRec (s : State) (g : GeckoId) (p : Nat) : W256 := BitVec.ofNat 256 (memNat s.mem (patAddr g p) 32)

/-- CRC-32C over the 131,072 bytes of a segment in address order (R268). -/
def State.segCrc (s : State) (g : GeckoId) (i : Nat) : Word :=
  crc32c ((List.range 131072).map fun j => memByte s.mem (patAddr g (4096 * i) + j))

/-- The match-array copies of a segment: its enabled patterns (R270). -/
def State.segCopies (s : State) (g : GeckoId) (i : Nat) : List (Nat × W256) :=
  (List.range 4096).filterMap fun j =>
    let p := 4096 * i + j
    let r := s.patRec g p
    if r.toNat.testBit 160 then some (p, r) else none

/-- The array with the copies of segment i replaced, in ascending index. -/
def arrayWith (a : List (Nat × W256)) (i : Nat) (l : List (Nat × W256)) : List (Nat × W256) :=
  a.filter (fun p => decide (patSeg p.1 < i)) ++ l ++ a.filter (fun p => decide (i < patSeg p.1))

/-- The end of a segment's check, 4,096 fc after it began (R268). -/
def State.segCheckDone (s : State) (g : GeckoId) (i : Fin 8) : State :=
  let s := s.foxSync g
  let x := s.fox[g]
  if s.foxRuns g && bitOf x.checking i && decide (x.checkAt[i] + 4096 ≤ s.fc) then
    if s.segCrc g i = s.foxVal g (0x6020 + 4 * i) s.fc then
      s.modFox g fun x => { x with
        checking := setBit x.checking i false, online := setBit x.online i true,
        array := arrayWith x.array i (s.segCopies g i), parity := x.parity.filter (fun p => patSeg p.1 ≠ i), excluded := x.excluded.filter (fun p => patSeg p ≠ i) }
    else
      ((s.modFox g fun x => { x with
          checking := setBit x.checking i false, excluded := x.excluded.filter (fun p => patSeg p ≠ i) }).dMod
        (geckoDie g) 0x600C (setBit · i false)).dMod (geckoDie g) 0x6010 (setBit · (16 + i.val) true)
  else s

/-! ## Scrubbing (R270) -/

/-- Log an event in FOX_ERR: the first since the last read; an uncorrectable one replaces a repair. -/
def State.foxErr (s : State) (g : GeckoId) (ue : Bool) (p : Nat) : State :=
  let d := geckoDie g
  let old := s.dGet d 0x6018
  if bitOf old 31 && !(ue && !(bitOf old 30)) then s
  else s.dPut d 0x6018 (at32 31 1 ||| at32 30 (b2n ue) ||| at32 29 (b2n (!ue)) ||| at32 0 p)

/-- The pattern that the scrub compares next: ascending over the online segments. -/
def Fox.scrubNext (x : Fox) : Option Nat :=
  ((List.range 9).map fun i => if i = 0 then x.scrub % 32768 else (x.scrub % 32768 / 4096 + i) % 8 * 4096).find? fun p =>
    bitOf x.online (patSeg p)

/-- One comparison of the scrub, of which there is one per fc: a corrected error is written back, an array copy that differs or
of which an element fails its parity is rewritten and logged, and a pattern with an uncorrectable record is excluded and logged
with the memory event. -/
def State.foxScrub (s : State) (g : GeckoId) : State :=
  let s := s.foxSync g
  match (if s.fox[g].scrubAt = some s.fc || !(s.foxRuns g) then none else s.fox[g].scrubNext) with
  | none => s
  | some p =>
    let s := s.modFox g fun x => { x with scrub := (p + 1) % 32768, scrubAt := some s.fc }
    let keys := (List.range 4).map fun j => wordKey (patKey g.val) (4 * p + j)
    if keys.any (fun k => s.eccOf k == 2) then
      let s := s.modFox g fun x => { x with excluded := if x.excluded.contains p then x.excluded else p :: x.excluded }
      (s.foxErr g true p).lineDie (geckoDie g) 3
    else
      let s := forAll keys s fun k t => if t.eccOf k == 1 then t.setEcc k 0 else t
      let r := s.patRec g p
      let copy := (s.fox[g].array.find? fun q => q.1 == p).map (·.2)
      let want := if r.toNat.testBit 160 then some r else none
      if copy = want && !(s.fox[g].parity.any fun q => q.1 == p) then s
      else
        let low := s.fox[g].array.filter fun q => decide (q.1 < p)
        let high := s.fox[g].array.filter fun q => decide (p < q.1)
        (s.modFox g fun x => { x with
            array := low ++ (want.map fun v => (p, v)).toList ++ high,
            parity := x.parity.filter (fun q => q.1 ≠ p) }).foxErr g false p

/-- FOX_SEGSTAT as read. -/
def State.foxSegstat (s : State) (g : GeckoId) : Word :=
  let s := s.foxSync g
  let x := s.fox[g]
  let busy := sumNat ((List.range 8).map fun i => if bitOf x.checking i || s.foxDraining g i then 2 ^ i else 0)
  (s.dGet (geckoDie g) 0x6010 &&& 0x00FF0000#32) ||| at32 8 busy ||| at32 0 x.online.toNat

/-- FOX_STAT as read. -/
def State.foxStat (s : State) (g : GeckoId) : Word :=
  setFld ((s.foxMarked g).dGet (geckoDie g) 0x6004) 22 20 (s.foxCtxs g).length

/-- FOX_DEAD as read. -/
def State.foxDead (s : State) (g : GeckoId) : Word :=
  at32 16 (s.foxEff g s.fc) ||| at32 8 (s.foxAuto g s.fc) ||| at32 0 (fld (s.dGet (geckoDie g) 0x6008) 7 0)
/-- FOX_SEGCTL as read: ONREQ as the writes in force leave it. -/
def State.foxSegctlRead (s : State) (g : GeckoId) : Word := (s.foxSync g).dGet (geckoDie g) 0x600C

/-- A write of FOX_CTL: a threshold outside 4 to 8 leaves THRESH unchanged and sets CFG_ERR; EN = 0 discards an open event
without output, once the write takes effect (R260). -/
def State.foxCtl (s : State) (g : GeckoId) (v : Word) : State :=
  let old := s.dGet (geckoDie g) 0x6000
  let bad := !(decide (4 ≤ fld v 11 8) && decide (fld v 11 8 ≤ 8))
  let nv := (v &&& 0x8FFF0F00#32)
  let nv := if bad then setFld nv 11 8 (fld old 11 8) else nv
  let s := s.foxPut g 0x6000 nv
  let s := if bad then s.modFox g fun x => { x with marks := x.marks ++ [(s.fc + 2, 0x6004, 0, at32 28 1)] } else s
  if bitOf v 31 then s else s.modFox g fun x => { x with drops := x.drops ++ [s.fc + 2] }

/-- FOX_SEGCTL.ONREQ as the last write has left it, in force or not. -/
def State.foxOnreq (s : State) (g : GeckoId) : Word :=
  let s := s.foxSync g
  match s.fox[g].segReq.getLast? with
  | some q => q.2
  | none => s.dGet (geckoDie g) 0x600C

/-- A write of FOX_SEGCTL, which takes effect 2 fc later (R260). -/
def State.foxSegctl (s : State) (g : GeckoId) (v : Word) : State :=
  (s.foxSync g).modFox g fun x => { x with segReq := x.segReq ++ [(s.fc + 2, v &&& 0xFF#32)] }

end Sys2Proof.Machine
end

