-- ==== Sys2Proof/Machine/Reduction.lean ====
section
/-!
DEFINITION. Machine/Reduction.lean: reduction channels (R314 to R316).
-/
namespace Sys2Proof.Machine

/-- RED_CFGc, and the tag of the next local contribution. -/
def State.redCfg (s : State) (c : RedId) : Word := s.n0 (0x5A00 + 16 * c.val)
def State.redTag (s : State) (c : RedId) : BitVec 12 := (s.n0 (0x5A08 + 16 * c.val)).setWidth 12

/-- Fields of a reduction word (R314). -/
def redValue (w : Dword) : Word := w.setWidth 32
def redWord (value : Word) (tag : BitVec 12) (c : Nat) (miss : Bool) (count : Nat) : Dword :=
  BitVec.ofNat 64 (value.toNat + tag.toNat * 2 ^ 32 + c * 2 ^ 44 + b2n miss * 2 ^ 47 + min 255 count * 2 ^ 48)

/-- Sources whose word a channel combines: ports of IN, and 4 for the local contribution (R315). -/
def redSources (cfg : Word) : List Nat :=
  ((List.range 4).filter fun p => bitOf cfg (24 + p)) ++ (if bitOf cfg 20 then [4] else [])

/-- Signed value cut to 32 bits by saturation. -/
def satWord (x : Int) : Word := BitVec.ofInt 32 (max (-2147483648) (min 2147483647 x))

/-- The combination of the values of a tag (Table 10-11); a missing input is the identity, which changes nothing. The reserved
operations 6 and 7 give an open value. -/
def redCombine (op : Nat) (l : List Word) : Word :=
  match op with
  | 0 => satWord (l.foldl (fun a w => a + w.toInt) 0)
  | 1 => l.foldl (· + ·) 0#32
  | 2 => l.foldl (fun a w => if a.slt w then w else a) 0x80000000#32
  | 3 => l.foldl (fun a w => if w.slt a then w else a) 0x7FFFFFFF#32
  | 4 => l.foldl (· ||| ·) 0#32
  | 5 => l.foldl (· &&& ·) 0xFFFFFFFF#32
  | op => l.foldl (Config.reservedReduction op) 0#32

/-- The sink's group of eight words (R316). -/
def redGroup (value : Word) (tag : BitVec 12) (c : Nat) (miss : Bool) (count : Nat) : List Word :=
  [value, at32 31 (b2n miss) ||| at32 16 (min 255 count) ||| at32 12 c ||| at32 0 tag.toNat, 0, 0, 0, 0, 0, 0]

/-- A group on its way to queue q of engine e, from Newt 0 (R320). Table 8-4 gives a reduction channel no master id, and 0xC1 stands
for it in the round-robin (DESIGN CHOICE, log 86). -/
def redBeat (e : EngineId) (q : Fin 16) (ws : List Word) : Beat :=
  { master := 0xC1, qos := 15, route := portsTo newt0 (engDie e) (0x10 + engIndex e), use := .push e q ws false }

/-- A channel combines a tag with the inputs it has; missing ones set MISS (R315), and the word leaves (R316). -/
def State.redOut (s : State) (c : RedId) (t : RedTag) : State :=
  let cfg := s.redCfg c
  let src := redSources cfg
  let ins := t.inputs.filter fun p => src.contains p.1
  let value := redCombine (fld cfg 30 28) (ins.map fun p => redValue p.2)
  let miss := (ins.any fun p => bitOf p.2 47) || decide (ins.length < src.length)
  let count := sumNat (ins.map fun p => if p.1 = 4 then 1 else fld p.2 55 48)
  let s := s.modRed c fun x => { x with tags := x.tags.filter fun u => u.tag ≠ t.tag }
  let out : PortId := ⟨fld cfg 19 18 % 4, by omega⟩
  let s := if bitOf cfg 17 then
      s.modPort out fun x => if x.up then { x with redTx := x.redTx ++ [redWord value t.tag c.val miss count] } else x
    else s
  match bitOf cfg 16, s.physOf (fld cfg 14 8) with
  | true, some e =>
    let q : Fin 16 := ⟨fld cfg 3 0 % 16, by omega⟩
    let ws := redGroup value t.tag c.val miss count
    if s.routeDown newt0 (engDie e) then s
    else (match s.sendBeat (redBeat e q ws) with
     | (true, s) => (s.iqSend e q ws none).1
     | (false, s) => s)
  | _, _ => s

/-- The tag with an input added, and whether that was its last (R315). -/
def Red.plus (x : Red) (src : Nat) (tag : BitVec 12) (w : Dword) (fc : Nat) : RedTag :=
  let t := (x.tags.find? fun u => u.tag = tag).getD { tag := tag, since := fc, inputs := [] }
  { t with inputs := t.inputs ++ [(src, w)] }
def Red.keep (x : Red) (t : RedTag) : Red :=
  { x with tags := if x.tags.any (fun u => u.tag = t.tag) then x.tags.map (fun u => if u.tag = t.tag then t else u)
                   else x.tags ++ [t] }
/-- A source has given a word of this tag that has not been combined. -/
def Red.has (x : Red) (src : Nat) (tag : BitVec 12) : Bool :=
  x.tags.any fun u => u.tag = tag && u.inputs.any fun p => p.1 == src
/-- Every source of the channel has given its word. -/
def State.redFull (s : State) (c : RedId) (t : RedTag) : Bool :=
  (redSources (s.redCfg c)).all fun p => t.inputs.any fun q => q.1 == p

/-- The next queued local contribution of a tag that has just been combined is its first input anew (R315). -/
def redFeed : Nat → State → RedId → BitVec 12 → State
  | 0, s, _, _ => s
  | n + 1, s, c, tag =>
    match s.reds[c].queued.find? fun q => q.1 = tag with
    | none => s
    | some q =>
      let t := s.reds[c].plus 4 tag q.2 s.fc
      let s := s.modRed c fun x => { x.keep t with queued := delFirst (fun r => r.1 == tag) x.queued }
      if s.redFull c t then redFeed n (s.redOut c t) c tag else s
/-- A tag is combined, and its next local contribution follows. -/
def State.redEmit (s : State) (c : RedId) (t : RedTag) : State := redFeed 4 (s.redOut c t) c t.tag

/-- An input of a tag arrives: a second one from the same port is not taken, a second local one is queued (log 23); the channel
combines once all are in (R315). -/
def State.redInput (s : State) (c : RedId) (src : Nat) (tag : BitVec 12) (w : Dword) : State :=
  let x := s.reds[c]
  if x.has src tag then
    (if src = 4 then s.modRed c fun x => { x with queued := x.queued ++ [(tag, w)] } else s)
  else
    let t := x.plus src tag w s.fc
    let s := s.modRed c (·.keep t)
    if s.redFull c t then s.redEmit c t else s

/-- A reduction word on an input port (R315). -/
def State.redPort (s : State) (p : PortId) (w : Dword) : State :=
  let c : RedId := ⟨fld w 46 44 % 8, by omega⟩
  let cfg := s.redCfg c
  if s.ports[p].up && bitOf cfg 31 && bitOf cfg (24 + p.val) then
    s.redInput c p.val (BitVec.ofNat 12 (fld w 43 32)) w
  else s

/-- A write of RED_LOCALc: a contribution under the tag of RED_LTAGc, up to 4 of them waiting (R315). -/
def State.redLocal (s : State) (c : RedId) (v : Word) : State :=
  let cfg := s.redCfg c
  let waiting := (s.reds[c].tags.filter fun t => t.inputs.any fun p => p.1 == 4).length + s.reds[c].queued.length
  if bitOf cfg 31 && bitOf cfg 20 && decide (waiting < 4) then
    s.redInput c 4 (s.redTag c) (redWord v (s.redTag c) c.val false 0)
  else s

/-- The combine deadline of a tag, RED_DLc after its first input (R315). -/
def State.redDeadline (s : State) (c : RedId) (tag : BitVec 12) : State :=
  match s.reds[c].tags.find? (fun u => u.tag = tag) with
  | some t =>
    if bitOf (s.redCfg c) 31 && decide (t.since + fld (s.n0 (0x5A0C + 16 * c.val)) 11 0 ≤ s.fc) then s.redEmit c t else s
  | none => s

end Sys2Proof.Machine
end

