-- ==== Sys2Proof/Machine/RegFile.lean ====
section
/-!
DEFINITION. Machine/RegFile.lean: one read and one write of any register by any master (R8 to R11, R121 to R123, R374): the
checks, the value as read, the effects of the read, and the effect of the write.
-/
namespace Sys2Proof.Machine

/-! ## Generic fields -/

/-- A stored register after a write: RW bits take v, W1C bits clear where v has a 1 (R8). -/
def RegInfo.write (r : RegInfo) (old v : Word) : Word :=
  let rw := BitVec.ofNat 32 r.rw
  let w1c := BitVec.ofNat 32 r.w1c
  (v &&& rw) ||| (old &&& ~~~rw &&& ~~~(v &&& w1c))
/-- A stored register after a read: RC bits clear (R11). -/
def RegInfo.afterRead (r : RegInfo) (old : Word) : Word := old &&& ~~~(BitVec.ofNat 32 r.rc)

/-! ## Reads -/

/-- A read of an engine register: its value, and the state after it. -/
def State.ioRead (s : State) (e : EngineId) (p : Nat) (r : RegInfo) : Word × State :=
  let g := s.eng e
  let rc (v : Word) : Word × State :=
    (v, if r.rc = 0 then s else s.ioPut e p (r.afterRead (g.ioGet p)))
  if within p 0x40 0x7C then s.iqTake e ⟨(p - 0x40) / 4 % 16, by omega⟩
  else if p = 0x840 then rc g.vecPwr
  else if p = 0x874 then
    (g.timLast.setWidth 32, s.modEng e fun g => { g with timLastLatch := BitVec.ofNat 32 (fld g.timLast 63 32) })
  else if p = 0x878 then (g.timLastLatch, s)
  else if p = 0x890 then rc (s.bankStat e)
  else if p = 0x894 then rc g.memCache
  else if p = 0x8C0 then (setBit (g.ioGet p) 1 g.capWait, s)
  else if p = 0x8D0 then (g.pend1, s)
  else if within p 0x1000 0x15FC then (g.snapGet p, s)
  else rc (g.ioGet p)

/-- D2D_STAT as read: DOWN follows the links. -/
def State.d2dStat (s : State) (d : DieId) : Word :=
  s.dGet d 0x7510 ||| at32 0 (sumNat ((List.finRange 6).map fun p => if (s.die d).d2d[p].down then 2 ^ p.val else 0))

/-- A register of DMA channel c by its offset. -/
def State.dmaRead (s : State) (c : ChanId) (o : Nat) : Word :=
  let x := s.dma[c]
  match o with
  | 0x00 => at32 0 x.ctx
  | 0x04 => x.desc
  | 0x08 => s.dmaStat c
  | 0x0C => at32 0 x.progress
  | 0x10 => x.cur
  | 0x14 => BitVec.ofNat 32 x.faddr
  | _ => 0

/-- The value of a die register that other state determines; none where it is stored. -/
def State.dieLive (s : State) (a : Access) (d : DieId) (p : Nat) : Option Word :=
  let n : Fin 2 := if d = 7 then 1 else 0
  let l (base : Nat) : Option LaneId := laneOf n ((p - base) / 4)
  let c : Option ChanId := chanOf d ((p - 0x7400) / 32)
  let gecko := isGecko d
  let g : GeckoId := ⟨d.val % 6, by omega⟩
  if within p 0x4100 0x41FC then some (latReg Config.stepping (0x40 + (p - 0x4100) / 4))
  else if within p 0x4200 0x4210 then some (BitVec.ofNat 32 (s.chanMask.toNat / 2 ^ (8 * (p - 0x4200))))
  else if p = 0x5600 then some (s.slotCtlWord d)
  else if within p 0x7400 0x74FC then c.map fun c => s.dmaRead c (p % 32)
  else if p = 0x7504 then some (s.iommuWord d)
  else if p = 0x7510 then some (s.d2dStat d)
  else if within p 0x7A00 0x7BBC then some (claimWord (s.claimOf d ((p - 0x7A00) / 4)))
  else if p = 0x7D00 then some (at32 8 (s.die d).qreason ||| at32 0 (s.die d).mode.val)
  else if gecko then
    (if p = 0x6004 then some (s.foxStat g) else if p = 0x6008 then some (s.foxDead g)
     else if p = 0x600C then some (s.foxSegctlRead g) else if p = 0x6010 then some (s.foxSegstat g) else none)
  else if within p 0x3100 0x321C then (l 0x3100).map fun l => laneStatWord s.lanes[l]
  else if within p 0x3300 0x341C then (l 0x3300).map fun l => s.lanes[l].sched
  else if within p 0x3500 0x361C then (l 0x3500).map fun l => s.lanes[l].cnt
  else if within p 0x5100 0x51FC ∧ p % 16 = 0 then some (s.capCtl n ((p - 0x5100) / 16))
  else if d ≠ newt0 then none
  else if p = 0x5004 then some s.helStat
  else if p = 0x5014 then some (s.timNow.setWidth 32)
  else if p = 0x5018 then some s.helio.latch
  else if p = 0x5430 then some s.tcStat
  else if p = 0x5808 then some (s.n0 p ||| at32 0 s.chainUpBits)
  else if p = 0x7600 then some (s.side (sideOf a)).item
  else if within p 0x7604 0x7610 then some ((s.side (sideOf a)).val.getD ((p - 0x7604) / 4) 0)
  else if p = 0x761C then some (if s.lark.proposed then s.lark.prop.item else 0)
  else if within p 0x7620 0x762C then
    some (if s.lark.proposed && s.lark.prop.item ≠ 0x300 then s.lark.prop.val.getD ((p - 0x7620) / 4) 0 else 0)
  else if p = 0x7630 then some (larkStat s.lark)
  else if within p 0x7640 0x764C then some (s.wldWord ((p - 0x7640) / 4))
  else if p = 0x7704 then
    (let o := s.obj (fld (s.n0 0x7700) 11 0)
     some (at32 31 (b2n o.valid) ||| at32 30 (worldBit o.world) ||| at32 0 o.epoch.toNat))
  else if within p 0x7720 0x772C then some (if a.root || a.world = s.mintWorld then s.n0 p else 0)
  else if within p 0x7E00 0x7E24 then some (s.ready ((p - 0x7E00) / 4))
  else if p = 0x7F28 then some (at32 28 (stepCode Config.stepping) ||| at32 12 0x7144)
  else none

/-- The effect of a read of a die register: RC fields clear, HEL_NOW_LO latches, CAP_TSHI frees its unit's timestamp. -/
def State.dieReadEffect (s : State) (d : DieId) (p : Nat) (r : RegInfo) : State :=
  if !isGecko d && within p 0x3500 0x361C then
    (match laneOf (if d = 7 then 1 else 0) ((p - 0x3500) / 4) with
     | some l => s.modLane l fun x => { x with cnt := 0 }
     | none => s)
  else if !isGecko d && within p 0x5100 0x51FC && p % 16 == 8 then s.dMod d (p - 8) (setBit · 31 false)
  else if d = newt0 ∧ p = 0x5014 then
    { s with helio := { s.helio with latch := BitVec.ofNat 32 (fld s.timNow 63 32) } }
  else if r.rc = 0 then s
  else s.dPut d p (r.afterRead (s.dGet d p))

/-- A read of a die register. -/
def State.dieRead (s : State) (a : Access) (d : DieId) (p : Nat) (r : RegInfo) : Word × State :=
  ((s.dieLive a d p).getD (s.dGet d p), s.dieReadEffect d p r)

/-! ## Writes -/

/-- Whether a writer is the current owner of a bank of engine e: the engine by pio, the neighbour over the alias, and in MD10
the supervisor of the engine's world over the alias (R167, R413). -/
def State.ownsBank (s : State) (a : Access) (e : EngineId) (v : Word) : Bool :=
  let code := (s.eng e).owner (fld v 3 0)
  a.sup &&
    ((!a.viaAlias && code == 0) ||
     (a.viaAlias && (((code == 2 || code == 3) && a.eng = some (neighbour e (code == 3))) ||
       ((s.eng e).mode = 10 && (a.world = s.world e || a.root)))))
/-- BANK_GIVE over the alias admits the supervisor of the engine's world and the current owner of a bank that the access names; any
other access is refused (R374; its World line). -/
def State.giveRefused (s : State) (a : Access) (e : EngineId) (banks : List Word) : Option Resp :=
  if !a.viaAlias || a.root || banks.any (s.ownsBank a e) then none
  else if a.world = s.world e then (if a.sup then none else some .level) else some .world
/-- Whether a writer may reclaim a bank of engine e (R169). -/
def State.mayReclaim (s : State) (a : Access) (e : EngineId) : Bool := a.sup && (a.world = s.world e || a.root)

/-- A write of an engine register by a master that passed the checks. `who` is the master whose fabric transaction it is. -/
def State.ioWrite (s : State) (a : Access) (e : EngineId) (p : Nat) (r : RegInfo) (v : Word) (who : Option Waiter) :
    Resp × State :=
  let ok (t : State) : Resp × State := (.ok 0, t)
  let g := s.eng e
  if within p 0x40 0x7C then
    let q : Fin 16 := ⟨(p - 0x40) / 4 % 16, by omega⟩
    (if a.viaAlias then
       match s.iqSend e q [v] who with
       | (t, true) => (.ok 0, t)
       | (t, false) => (.held, t)
     else ok (s.iqOut e q v))
  else if p = 0x800 then ok (s.modEng e (·.issueWrite v))
  else if p = 0x818 then ok (s.modEng e (·.imgCheck v))
  else if p = 0x824 then s.ildata e (!a.viaAlias) who v
  else if p = 0x840 then ok (s.modEng e (·.vecPwrWrite v))
  else if p = 0x888 then
    (match s.giveRefused a e [v] with
     | some x => (x, s)
     | none => ok (s.bankGive e v (s.ownsBank a e v) (s.mayReclaim a e)))
  else if p = 0x88C then ok (s.bankTpWrite e v)
  else if p = 0x894 then ok (s.modEng e (·.cacheWrite v))
  else if p = 0x8A0 then ok (s.modEng e fun g => (g.ioLate p (r.write (g.ioGet p) v)).actLate 0x8A1 0)
  else if p = 0x8A4 then ok (s.modEng e (·.actLate 0x8A4 v))
  else if p = 0x8A8 then ok (s.modEng e (·.qosWrite v))
  else if p = 0x8C0 then ok (s.excWrite e (r.write (g.ioGet p) v))
  else if p = 0x8D4 then ok (s.modEng e (·.ring v))
  else if within p 0xA00 0xAFC then ok (s.modEng e (·.winWrite p (BitVec.ofNat 32 r.rw) v))
  else if p = 0xB10 then ok (s.modEng e (·.startWrite v))
  else if within p 0x1000 0x15FC then ok (s.modEng e (·.snapPut p v))
  else if within p 0x900 0x9FC then ok s
  else ok (s.ioPut e p (r.write (g.ioGet p) v))

/-- A write of a DMA channel register. -/
def State.dmaWrite (s : State) (a : Access) (c : ChanId) (o : Nat) (v : Word) : State :=
  match o with
  | 0x00 => s.dmaCtrl a c v
  | 0x04 => s.dmaDesc c v
  | 0x08 => if bitOf v 0 then s.modDma c fun x => { x with hbErr := false } else s
  | _ => s

/-- A write of a Larkspur register or LARK_SEAL. -/
def State.larkWrite (s : State) (a : Access) (p : Nat) (v : Word) : State :=
  let w := sideOf a
  let x := s.side w
  if p = 0x7600 then s.setSide w { x with item := v &&& 0xFFFF#32 }
  else if within p 0x7604 0x7610 then s.setSide w { x with val := x.val.setIfInBounds ((p - 0x7604) / 4) v }
  else if p = 0x7614 then (if bitOf v 0 then s.larkPropose w else s)
  else if p = 0x7618 then s.larkConfirm w v
  else if p = 0x7630 then (if bitOf v 27 then { s with lark := { s.lark with alarm := false } } else s)
  else if p = 0x7634 then s.larkSeal a v
  else s

/-- CHAN_MASKk: each 1 written clears its bit (R299). -/
def State.chanMaskWrite (s : State) (k : Nat) (v : Word) : State :=
  forAll (List.finRange 144) s fun l t => if l.val / 32 = k ∧ bitOf v (l.val % 32) then t.unretireLane l else t

/-- DIN_TS: each bit of EN takes its value (R241, R409). -/
def State.dinWrite (s : State) (a : Access) (n : Fin 2) (v : Word) : State :=
  forAll (List.finRange 8) s fun i t => if bitOf v i.val then t.dinEnable a n i else t.dinDisable n i

/-- LMISS_POL: TS writes bit 0, HS bit 1, a ROOT token both (R460). -/
def State.lmissWrite (s : State) (a : Access) (v : Word) : State :=
  s.n0Mod 0x5010 fun old =>
    let x := if a.root || a.world = .T then setBit old 0 (bitOf v 0) else old
    if a.root || a.world = .H then setBit x 1 (bitOf v 1) else x

/-- CMD of CLM_r (R408, R409). -/
def State.clmWrite (s : State) (a : Access) (d : DieId) (r : Nat) (v : Word) : State :=
  match fld v 1 0 with
  | 1 => s.claimCmd a d r
  | 2 => s.releaseCmd a d r
  | _ => s

/-- A write of a register of a Newt that stands on both Newts. -/
def State.newtWrite (s : State) (a : Access) (n : Fin 2) (p : Nat) (r : RegInfo) (v : Word) : State :=
  let d := newtDie n
  let store : State := s.dPut d p (r.write (s.dGet d p) v)
  if within p 0x3000 0x3044 then s.quadWrite ⟨18 * n.val + (p - 0x3000) / 4 % 18, by omega⟩ v
  else if within p 0x3100 0x321C then
    (match laneOf n ((p - 0x3100) / 4) with
     | some l => if bitOf v 24 then s.modLane l fun x => { x with negErr := false } else s
     | none => s)
  else if within p 0x3300 0x341C then
    (match laneOf n ((p - 0x3300) / 4) with | some l => s.schedWrite l v | none => s)
  else if within p 0x3500 0x361C then s
  else if p = 0x3700 then s.retCfgWrite n v
  else if p = 0x3704 then s.latMeas a n v
  else if p = 0x7D04 then (if (s.die d).mode = 10 then s else store)
  else if within p 0x5200 0x523C then
    { store with pins := { s.pins with fineNew := setBit s.pins.fineNew (16 * n.val + (p - 0x5200) / 4) true } }
  else if p = 0x5300 then s.dinWrite a n v
  else if p = 0x5810 ∨ p = 0x5818 then s.chnPortWrite ⟨2 * n.val + (p - 0x5810) / 8 % 2, by omega⟩ v
  else if within p 0x6000 0x71FC then
    (match laneOf n ((p - 0x6000) / 64) with
     | some l => s.routeWrite l ⟨(p - 0x6000) / 16 % 4, by omega⟩ ⟨p % 16 / 4 % 3, by omega⟩ v
     | none => s)
  else store

/-- A write of a register of Newt 0 only. A writer with ROOT, of either world, mints for the world of the object (R393, R460,
log 93). -/
def State.newt0Write (s : State) (a : Access) (p : Nat) (r : RegInfo) (v : Word) : State :=
  if p = 0x5000 then s.helCfg v
  else if p = 0x5010 then s.lmissWrite a v
  else if p = 0x5020 then s.epochWrite v
  else if p = 0x5400 then s.tcWrite a v
  else if p = 0x5800 then s.chnIdWrite v
  else if p = 0x5804 then s.chnCtlWrite v
  else if within p 0x5A00 0x5A7C ∧ p % 16 = 4 then s.redLocal ⟨(p - 0x5A00) / 16 % 8, by omega⟩ v
  else if within p 0x7600 0x7634 then s.larkWrite a p v
  else if p = 0x7718 then
    (let t := s.n0Put p (r.write (s.n0 p) v)
     if bitOf v 31 then t.mint (if a.root then (t.obj (fld (t.n0 0x7710) 11 0)).world else a.world) else t)
  else if p = 0x7F08 then s.thermWrite v
  else if p = 0x7F24 then s.bootMbox v
  else if p = 0x7F40 then s.hostRing v
  else s.newtWrite a 0 p r v

/-- A write of a register of a Gecko only. -/
def State.geckoWrite (s : State) (g : GeckoId) (p : Nat) (r : RegInfo) (v : Word) : State :=
  let d := geckoDie g
  if p = 0x4020 then s.skinkCtlWrite g v
  else if p = 0x6000 then s.foxCtl g v
  else if p = 0x600C then s.foxSegctl g v
  else if p = 0x6008 ∨ p = 0x6014 ∨ within p 0x6020 0x603C ∨ within p 0x6100 0x61FC then s.foxPut g p (r.write (s.dGet d p) v)
  else if p = 0x6004 ∨ p = 0x6010 then s.foxClear g p (v &&& BitVec.ofNat 32 r.w1c)
  else s.dPut d p (r.write (s.dGet d p) v)

/-- A write of a die register by a master that passed the checks. -/
def State.dieWrite (s : State) (a : Access) (d : DieId) (p : Nat) (r : RegInfo) (v : Word) : State :=
  if p = 0x4000 then s.eccCtlWrite d v
  else if within p 0x4200 0x4210 then s.chanMaskWrite ((p - 0x4200) / 4) v
  else if within p 0x7400 0x74FC then
    (match chanOf d ((p - 0x7400) / 32) with | some c => s.dmaWrite a c (p % 32) v | none => s)
  else if p = 0x7500 then s.dmaPause a d v
  else if p = 0x7504 then s.iommuWrite d v
  else if within p 0x7800 0x79FC then s.ctxWrite a d ((p - 0x7800) / 8) (p % 8 / 4) v
  else if within p 0x7A00 0x7BBC then s.clmWrite a d ((p - 0x7A00) / 4) v
  else if within p 0x7D40 0x7D4C then s.engMapWrite d p v
  else if within p 0x8000 0xFFFF then s.slotWrite a d p v
  else if h : d.val < 6 then s.geckoWrite ⟨d.val, h⟩ p r v
  else if d = 6 then s.newt0Write a p r v
  else s.newtWrite a 1 p r v

/-! ## Checks and accesses -/

/-- A register of Foxglove or Skink on a Gecko in MD0, whose clocks are gated (Table 14-2), or of a Foxglove that is not ready
(R424). -/
def State.gatedReg (s : State) (d : DieId) (p : Nat) : Bool :=
  if h : d.val < 6 then
    ((s.die d).mode = 0 && (within p 0x6000 0x61FF || p == 0x4020 || p == 0x4024)) ||
      (within p 0x6000 0x61FF && !(s.foxReady ⟨d.val, h⟩))
  else false

/-- Checks in the order of R123 that stop an access before it is made: no register, a byte inside one, its World line, the READY
bit of an engine reached over its alias (R424), the state window outside MD10 (R429), the gated units of a Gecko in MD0 (R416). -/
def State.regCheck (s : State) (a : Access) (t : Target) (wr : Bool) : Except Resp RegInfo :=
  match targetInfo t with
  | none => .error (if targetCovers t then .misaligned else .bus 0)
  | some r =>
    match refusal s t a wr r.rule with
    | some x => .error x
    | none =>
      match t with
      | .io e p =>
        if a.viaAlias && !(s.engReady e) then .error (.bus 1)
        else if within p 0x1000 0x15FC && (s.eng e).mode ≠ 10 then .error (.bus 0)
        else match (if p = 0x888 && !wr then s.giveRefused a e ((List.range 16).map fun b => BitVec.ofNat 32 b) else none) with
          | some x => .error x
          | none => .ok r
      | .die d p => if s.gatedReg d p then .error (.bus 1) else .ok r
      | .bar0 _ => .ok r

/-- A register read that the checks have admitted. -/
def State.regReadOk (s : State) (a : Access) (t : Target) (r : RegInfo) : Resp × State :=
  match t with
  | .io e p => let (v, s) := s.ioRead e p r; (.ok v.toNat, s)
  | .die d p => let (v, s) := s.dieRead a d p r; (.ok v.toNat, s)
  | .bar0 _ => (.bus 0, s)
/-- A register write that the checks have admitted; `who` is the master whose fabric transaction it is, if any. -/
def State.regWriteOk (s : State) (a : Access) (t : Target) (r : RegInfo) (v : Word) (who : Option Waiter) : Resp × State :=
  match t with
  | .io e p => s.ioWrite a e p r v who
  | .die d p => (.ok 0, s.dieWrite a d p r v)
  | .bar0 _ => (.bus 0, s)

/-- A register read by an access: the answer and the state after it. -/
def State.regRead (s : State) (a : Access) (t : Target) : Resp × State :=
  match t with
  | .bar0 off =>
    if a.host then (let (v, s) := s.bar0Read off; (.ok v.toNat, s)) else (.bus 0, s)
  | _ =>
    match s.regCheck a t false with
    | .error x => (x, s)
    | .ok r => s.regReadOk a t r

/-- A register write by an access; `who` is the master whose fabric transaction it is, if any. -/
def State.regWriteBy (s : State) (a : Access) (t : Target) (v : Word) (who : Option Waiter) : Resp × State :=
  match t with
  | .bar0 off => if a.host then (.ok 0, s.bar0Write off v) else (.bus 0, s)
  | _ =>
    match s.regCheck a t true with
    | .error x => (x, s)
    | .ok r => s.regWriteOk a t r v who
def State.regWrite (s : State) (a : Access) (t : Target) (v : Word) : Resp × State := s.regWriteBy a t v none

/-! ## Register accesses as commands -/

/-- Whether a master reaches a target: pio only where one of its ports leads there (R453, R461). -/
def masterReaches (m : Master) (t : Target) : Bool :=
  match m, t with
  | .pio e, .io f p => e = f && decide (p < 0x2000)
  | .pio e, .die _ p => pioTarget e p = some t
  | .pio _, .bar0 _ => false
  | .host _, .bar0 _ => true
  | _, .bar0 _ => false
  | _, .io _ p => decide (p < 0x2000)
  | _, .die _ p => decide (p < 0x10000)

/-- A write held at an engine's target port holds every later write to that port, but for words that wait in their own order there
(R179, R295, R296). -/
def State.portHeld (s : State) (t : Target) : Bool :=
  match t with
  | .io e p =>
    if within p 0x40 0x7C then false
    else !(s.eng e).iqHeld.isEmpty || (p ≠ 0x824 && !(s.eng e).ilHeld.isEmpty)
  | _ => false

/-- Address of a register in the aliases (R25, R27). -/
def aliasAddr : Target → Nat
  | .io e p => 0x18000000 + e.val * 0x10000 + p
  | .die d p => 0x1C000000 + d.val * 0x800000 + p
  | .bar0 _ => 0

/-- A host request to fabric address x of n bytes through slot i: whether steps 3 to 5 admit it; a bound slot whose token fails
step 2 or 3 goes stale and refuses (R396). -/
def State.hostAdmit (s : State) (i : SlotId) (x n : Nat) (wr : Bool) : Bool × State :=
  let t := s.slotToken i
  if !(s.slotBound i) || s.hslots[i].stale then (false, s)
  else if s.hslots[i].bound && !(s.tokSealed t && s.tokObject t) then (false, s.modSlot i fun h => { h with stale := true })
  else (s.hostCheck t x n wr, s)

/-- The answer to a host request: a refused posted write is counted in TKN_STAT.HDROPS (R396). -/
def State.hostAnswer (s : State) (wr : Bool) (r : Resp) : State :=
  match wr, r with
  | true, .ok _ | true, .held => s.answer r
  | true, _ => (s.n0Mod 0x7730 (bumpFld · 15 0 1)).answer r
  | false, _ => s.answer r

/-- The answer of a register access is recorded for its master. -/
def State.regAnswer (s : State) (m : Master) (t : Target) (wr : Bool) (r : Resp) : State :=
  match m, t with
  | .host _, .bar0 _ => s.answer r
  | .host _, _ => s.hostAnswer wr r
  | _, _ => s.answer r

/-- The PCIe host. -/
def fromHost : Master → Bool
  | .host _ => true
  | _ => false
/-- The die on which a master of the command table has its port; a chain request's is not known. -/
def masterDie : Master → Option DieId
  | .alias_ e => some (engDie e)
  | .dma c => some (chanDie c)
  | .host _ => some newt0
  | _ => none
/-- The die of a register. -/
def targetDie : Target → DieId
  | .io e _ => engDie e
  | .die d _ => d
  | .bar0 _ => newt0
/-- A link on the way of a register access, or on its way back, is down (R22, R327). -/
def State.cutOff (s : State) (m : Master) (t : Target) : Bool :=
  (masterDie m).any fun a => s.routeDown a (targetDie t) || s.routeDown (targetDie t) a
/-- Whether a master's register access reaches its register: pio by its ports, the host through a slot that admits the alias
address; none while the package is in reset, nor the host's while its endpoint is or its link is down (R440, R442). -/
def State.reaches (s : State) (m : Master) (t : Target) (wr : Bool) : Option Resp × State :=
  if !(masterReaches m t) then (some (.bus 0), s)
  else if s.inReset || (fromHost m && !s.hostUp) || s.cutOff m t then (some (.bus 1), s)
  else match m, t with
    | .host _, .bar0 _ => (none, s)
    | .host i, _ =>
      let (ok, s) := s.hostAdmit i (s.devId * 2 ^ 31 + aliasAddr t) (((targetInfo t).map (·.width)).getD 4) wr
      (if ok then none else some (.cap 1), s)
    | _, _ => (none, s)

/-- A write that must wait behind a held one at the engine's target port (R295, R296). -/
def State.behindHeld (s : State) (a : Access) (t : Target) : Bool := a.viaAlias && s.portHeld t

/-- The answer of a register as its master has it: over an alias a byte inside a register is no register (R27). -/
def overAlias (a : Access) (r : Resp) : Resp := if a.viaAlias && r = .misaligned then .bus 0 else r
/-- Port 0x100 + k of any engine's I/O space is DEC_STAGEk of its Newt (R461). -/
def homeOf : Target → Target
  | .io e p => if within p 0x100 0x11F then .die (decNewt (p - 0x100)) p else .io e p
  | t => t
/-- A register read made by a command, with its answer recorded. -/
def State.cmdRead (s : State) (m : Master) (t : Target) : State :=
  let t := homeOf t
  match s.reaches m t false with
  | (some r, s) => s.regAnswer m t false r
  | (none, s) =>
    let a := accessOf s m
    let (r, s) := s.regRead a t
    s.regAnswer m t false (overAlias a r)

/-- What a write by the host or a chain request leaves where its target holds it (R392). -/
def outerOf (s : State) : Master → Option Waiter
  | .host _ | .chain _ => some (.outer (if s.lark.old.isSome then s.lark.gen - 1 else s.lark.gen))
  | _ => none
/-- A register write made by a command, with its answer recorded; behind a held write it is not made (log 32). -/
def State.cmdWrite (s : State) (m : Master) (t : Target) (v : Word) : State :=
  let t := homeOf t
  match s.reaches m t true with
  | (some r, s) => s.regAnswer m t true r
  | (none, s) =>
    let a := accessOf s m
    if s.behindHeld a t then s.answer .held
    else
      let (r, s) := s.regWriteBy a t v (outerOf s m)
      s.regAnswer m t true (overAlias a r)

end Sys2Proof.Machine
end

