-- ==== Sys2Proof/Machine/Target.lean ====
section
/-!
DEFINITION. Machine/Target.lean: the checks a master makes before a transaction leaves it (R26, R27, R317, R378), and an access
made at its target (R163 to R165, R185, R192, R255, R257).
-/
namespace Sys2Proof.Machine

/-! ## Masters -/

/-- Who asks, for the owner codes of Table 6-2. -/
inductive Party where
  | eng (e : EngineId)
  /-- A DMA channel; its context names the engine. -/
  | dma (c : ChanId) (e : EngineId)
  | other
deriving DecidableEq, Repr

/-- A master's identity for an access: world and level, party, and whether the partition is checked (internal masters are
not, R373). -/
structure Who where
  acc   : Access
  party : Party
  inner : Bool := false
deriving DecidableEq, Repr

/-- The internal masters (R373): front-end routing units, road outputs, reduction channels. -/
def innerWho : Who := { acc := { world := .T, sup := true }, party := .other, inner := true }
/-- Engine e as a fabric master. -/
def State.engWho (s : State) (e : EngineId) : Who :=
  { acc := { eng := some e, world := s.world e, sup := (s.eng e).sup }, party := .eng e }
/-- A DMA channel with its context. -/
def State.dmaWho (s : State) (c : ChanId) : Who :=
  { acc := accessOf s (.dma c), party := .dma c (s.ctxEngine (chanDie c) s.dma[c].context) }

/-- A master of the command table as a fabric master. -/
def State.whoOf (s : State) (m : Master) : Who :=
  match m with
  | .pio e | .alias_ e => s.engWho e
  | .dma c => s.dmaWho c
  | _ => { acc := accessOf s m, party := .other }

/-- The check that a master makes before its request leaves: partition (R378), reserved range, ROM write and target limits
(R26, R317), and an alias access that reaches no register (R27). -/
def State.masterCheck (s : State) (m : Who) (x n : Nat) (wr : Bool) : Option Resp :=
  if !m.inner && !(inAlias x) && !(s.partOk m.acc x n wr) then some .part
  else match place x n with
    | none => some (.bus 0)
    | some .rom => if wr then some (.bus 0) else none
    | some _ => none

/-! ## Owner codes (R163 to R165) -/

/-- Whether the code of a bank admits a party on its governed port (Table 6-2). -/
def codeAdmits (e : EngineId) (code : Nat) (p : Party) : Bool :=
  match code, p with
  | 0, .eng f => f = e
  | 0, .dma _ f => f = e
  | 1, .dma c _ => chanDie c = engDie e
  | 2, .eng f => f = neighbour e false
  | 3, .eng f => f = neighbour e true
  | 5, .eng f => f ≠ e
  | 5, _ => true
  | _, _ => false

/-- A DMA channel. -/
def Party.isDma : Party → Bool
  | .dma _ _ => true
  | _ => false
/-- Whether a party may use a bank of engine e: port A of banks 0 and 1 serves the engine's own units whatever the code (R162);
a channel's burst that arrives while a reclaim waits is an ownership violation (R169). -/
def State.bankAdmits (s : State) (e : EngineId) (b : Nat) (p : Party) : Bool :=
  (codeAdmits e ((s.eng e).owner b) p && !(p.isDma && (s.eng e).reclaim.contains b)) || (decide (b < 2) && p = .eng e)

/-- Banks that [x, x + n) of a scratchpad touches. -/
def banksOf (x n : Nat) : List Nat :=
  let o := (x - 0x10000000) % 0x40000
  (List.range ((o + n - 1) / 0x4000 + 1 - o / 0x4000)).map fun i => o / 0x4000 + i

/-- The banks of an access that Skink holds yield where code 0x0 would admit the party (R196, R197). -/
def State.yieldFor (s : State) (e : EngineId) (x n : Nat) (p : Party) : State :=
  if codeAdmits e 0 p then forAll (banksOf x n) s fun b t => t.yieldBank e b else s

/-- An access has started on a bank (R193). -/
def State.touchBanks (s : State) (e : EngineId) (x n : Nat) : State :=
  forAll (banksOf x n) s fun b t => t.modEng e fun g => { g with bankAt := g.bankAt.setIfInBounds b t.fc }

/-! ## The two ports of banks 0 and 1 (R174, Table 6-5)

An access of another party arrives in the present ec of the engine, before what the engine itself does in that ec. Port B writes
at once and leaves a note; port A, which comes after it in the ec, reads past it and makes it wait. -/

/-- The write of byte a by port B in the present ec. -/
def Engine.portBAt (g : Engine) (a : Nat) : Option PortBWrite := g.portB.find? fun q => q.addr == a && q.ec == g.ec
/-- The n bytes v at x as port A reads them: those from before a port B write of this ec. -/
def Engine.portARead (g : Engine) (x n v : Nat) : Nat :=
  if g.portB.isEmpty then v
  else leNat ((List.range n).map fun j =>
    match g.portBAt (x + j) with
    | some q => q.before
    | none => BitVec.ofNat 8 (v / 2 ^ (8 * j)))
/-- The strobes of the bytes that keep what port A writes: where both ports write a byte, port B's data stays. -/
def Engine.portANow (g : Engine) (x n strobe : Nat) : Nat :=
  sumNat ((List.range n).map fun j => if strobe.testBit j && (g.portBAt (x + j)).isNone then 2 ^ j else 0)
/-- Port B is held by port A's write to the next ec, in which port A still reads its own data. -/
def Engine.portAHold (g : Engine) (x n strobe data : Nat) : Engine :=
  { g with portB := g.portB.map fun q =>
      if q.ec == g.ec && decide (x ≤ q.addr) && decide (q.addr < x + n) && strobe.testBit (q.addr - x) then
        { q with before := BitVec.ofNat 8 (data / 2 ^ (8 * (q.addr - x))), ec := g.ec + 1, held := true }
      else q }
/-- A write through port A. -/
def State.portAWrite (s : State) (e : EngineId) (x n strobe data : Nat) : State :=
  let g := s.eng e
  if g.portB.isEmpty then { s with mem := memWrite s.mem x n strobe data }
  else { s.modEng e (·.portAHold x n strobe data) with mem := memWrite s.mem x n (g.portANow x n strobe) data }
/-- What a port B write of a running engine's bank 0 or 1 notes of each byte: what port A reads in this ec. -/
def Engine.portBNote (g : Engine) (m : Memory) (x n strobe : Nat) : Engine :=
  if !g.running then g
  else
    let new := ((List.range n).filter fun j => strobe.testBit j && decide ((x + j - 0x10000000) % 0x40000 < 0x8000)).map fun j =>
      ({ addr := x + j, before := match g.portBAt (x + j) with | some q => q.before | none => memByte m (x + j), ec := g.ec,
         held := false } : PortBWrite)
    { g with portB := new ++ g.portB.filter fun q => !(new.any fun r => r.addr == q.addr) }
/-- A write through port B. -/
def State.portBWrite (s : State) (e : EngineId) (x n strobe data : Nat) : State :=
  { s.modEng e (·.portBNote s.mem x n strobe) with mem := memWrite s.mem x n strobe data }

/-- The cells of the scratchpad of engine e at local address x, with error correction of the words that the strobes reach (R146);
another party than the engine's own units uses port B of banks 0 and 1 (R174). -/
def State.spadCells (s : State) (e : EngineId) (p : Party) (x n : Nat) (wr : Bool) (strobe data : Nat) : Resp × State :=
  let s := s.touchBanks e x n
  match eccAll (spadTouched e ((x - 0x10000000) % 0x40000) n strobe) s wr with
  | (s, false) => (.bus 2, s)
  | (s, true) =>
    if p = .eng e then
      (if wr then (.ok 0, s.portAWrite e x n strobe data) else (.ok ((s.eng e).portARead x n (memNat s.mem x n)), s))
    else if wr then (.ok 0, s.portBWrite e x n strobe data)
    else (.ok (memNat s.mem x n), s)

/-- The age that an operation in flight has when the present ec ends its wait for a port, where no hold ec comes first. -/
def Engine.nextAge (g : Engine) (o : Op) : Nat := if g.cycleOpen then o.age else o.age + 1
/-- An operation in flight, or an instruction fill, uses bank b's port in the present ec, unless that ec is one of a hold. -/
def Engine.portTaken (g : Engine) (b : Nat) : Bool :=
  (g.inflight.any fun o => o.fault.isNone && o.uses.any fun q => q.1 == g.nextAge o && q.2 == b) ||
    g.ifill.any fun f => (f.1 * 64 % 2 ^ 31 - 0x10000000) % 0x40000 / 0x4000 == b && decide (f.2.1 < 8)
/-- A DMA request of the owner's context loses the single port of a bank to the engine's units or to an instruction fill; the ports
of banks 0 and 1 never conflict (R171, R173). -/
def State.portLost (s : State) (e : EngineId) (p : Party) (x n : Nat) : Bool :=
  match p with
  | .dma _ _ => (banksOf x n).any fun b => decide (2 ≤ b) && ((s.eng e).owner b == 0) && (s.eng e).portTaken b
  | _ => false
/-- A DMA access waits for the two ec of a yield that it has caused (R197). -/
def State.yieldWait (s : State) (e : EngineId) (p : Party) (x n : Nat) : Bool :=
  p.isDma && (banksOf x n).any fun b => (s.eng e).yields.any fun q => q.1 == b && decide (s.fc < q.2)

/-- Banks of a DMA access that Skink holds and gives back for it. -/
def State.borrowedFor (s : State) (e : EngineId) (x n : Nat) (p : Party) : List Nat :=
  if p.isDma && codeAdmits e 0 p then (banksOf x n).filter (s.borrowed e) else []
/-- The yields of these banks begin: two ec, which are over after two fc (R197; log 98). -/
def Engine.noteYields (g : Engine) (now : Nat) (banks : List Nat) : Engine :=
  if banks.isEmpty then g
  else { g with yields := (g.yields.filter fun q => decide (now < q.2)) ++ banks.map fun b => (b, now + 2) }
/-- An access that its bank has admitted and that has started: it is made once the bank's port is free (R168, R171, R197). -/
def State.spadStarted (s : State) (e : EngineId) (p : Party) (x n : Nat) (wr : Bool) (strobe data : Nat) : Resp × State :=
  if s.yieldWait e p x n || s.portLost e p x n then (.held, s) else s.spadCells e p x n wr strobe data
/-- Bytes of the scratchpad of engine e at local address x, by a party that the owner code admits. -/
def State.spadAccess (s : State) (e : EngineId) (p : Party) (x n : Nat) (wr : Bool) (strobe data : Nat) : Resp × State :=
  let old := s.borrowedFor e x n p
  let s := (s.yieldFor e x n p).modEng e (·.noteYields s.fc old)
  match (banksOf x n).find? (fun b => !(s.bankAdmits e b p)) with
  | some b => (.owner ((s.eng e).owner b), s)
  | none => s.spadStarted e p x n wr strobe data

/-! ## Access at the target -/

/-- A memory access with error correction on a bank key. -/
def State.cellAccess (s : State) (key base x n : Nat) (wr : Bool) (strobe data : Nat) : Resp × State :=
  match eccAll (touched key (x - base) n strobe) s wr with
  | (s, false) => (.bus 2, s)
  | (s, true) => if wr then (.ok 0, { s with mem := memWrite s.mem x n strobe data }) else (.ok (memNat s.mem x n), s)

/-- Boot ROM bytes (R456). -/
def romNat (x : Nat) : Nat → Nat
  | 0 => 0
  | n + 1 => (Config.bootRomByte x).toNat + 256 * romNat (x + 1) n

/-- The strobes and data of a hit-input write, placed in its 32 bytes. -/
def hitBytes (x n strobe data : Nat) : W256 × Word :=
  let o := x % 32
  (BitVec.ofNat 256 (data % 2 ^ (8 * n) * 2 ^ (8 * o)), BitVec.ofNat 32 (strobe % 2 ^ n * 2 ^ o))

/-- The segment of the patterns that [x, x + n) of a pattern window touches is idle and offline (R255). -/
def State.patWritable (s : State) (g : GeckoId) (x n : Nat) : Bool :=
  let o := x % 0x800000
  let s := s.foxSync g
  (List.range 8).all fun i => !(decide (o / 0x20000 ≤ i) && decide (i ≤ (o + n - 1) / 0x20000)) || s.segIdle g i

/-- An access to a place, made at its target. `who` is the master whose transaction it is, where the target may hold it. -/
def State.targetAccess (s : State) (m : Who) (pl : Place) (x n : Nat) (wr : Bool) (strobe data : Nat)
    (who : Option Waiter) : Resp × State :=
  match pl with
  | .pool g b =>
    if !(s.bankReady g b) || (s.die (geckoDie g)).mode = 0 || bitOf (s.dGet (geckoDie g) 0x4010) b then (.bus 1, s)
    else s.cellAccess (poolKey g.val b) (g.val * 0x2000000 + b * 0x200000) x n wr strobe data
  | .spad e =>
    if !(s.engReady e) then (.bus 1, s) else s.spadAccess e m.party x n wr strobe data
  | .pat g =>
    if !(s.foxReady g) || (s.die (geckoDie g)).mode = 0 || (wr && !(s.patWritable g x n)) then (.bus 1, s)
    else s.cellAccess (patKey g.val) (0x14000000 + g.val * 0x800000) x n wr strobe data
  | .hit g =>
    if !(s.foxReady g) || (s.die (geckoDie g)).mode = 0 || !wr then (.bus 1, s)
    else if (s.die (geckoDie g)).mode = 11 then (.ok 0, s)
    else
      let (ws, st) := hitBytes x n strobe data
      let (s, r) := s.foxHits g ws st who
      (r, s)
  | .reg t =>
    let (r, s) := if wr then s.regWriteBy m.acc t (BitVec.ofNat 32 data) who else s.regRead m.acc t
    (if r = .misaligned then .bus 0 else r, s)
  | .rom => if wr then (.bus 0, s) else (.ok (romNat (x - 0x20000000) n), s)
  | .cal =>
    if !s.calsReady then (.bus 1, s)
    else if wr then (.ok 0, { s with cal := memWrite s.cal (x - 0x21000000) n strobe data })
    else (.ok (memNat s.cal (x - 0x21000000) n), s)

/-- A whole local access: the master's check, then the target. -/
def State.localAccess (s : State) (m : Who) (x n : Nat) (wr : Bool) (strobe data : Nat) (who : Option Waiter) :
    Resp × State :=
  match s.masterCheck m x n wr, place x n with
  | some r, _ => (r, s)
  | none, some pl => s.targetAccess m pl x n wr strobe data who
  | none, none => (.bus 0, s)

/-- The same by a master on die a: a bus error where a link of the default route, or of the way back, is down (R22, R327). -/
def State.accessFrom (s : State) (m : Who) (a : DieId) (x n : Nat) (wr : Bool) (strobe data : Nat) (who : Option Waiter) :
    Resp × State :=
  let fa := s.devId * 2 ^ 31 + x
  if s.routeDown a (s.portFor fa n).1 then (.bus 1, s)
  else
    let (r, s) := s.localAccess m x n wr strobe data who
    (if r = .held then r else s.returned a fa n r, s)

/-- The error that a master on die a has at once for [x, x + n), without a transaction: its own check (R26, R378), or a link of its
route that is down (R327). -/
def State.errorAtOnce (s : State) (m : Who) (a : DieId) (x n : Nat) (wr : Bool) : Option Resp :=
  match s.masterCheck m x n wr with
  | some r => some r
  | none => if s.routeDown a (s.portFor (s.devId * 2 ^ 31 + x) n).1 then some (.bus 1) else none

/-- A chain request of a world, and a host request, whose check has been made (R304, R392): the partition is not checked again. -/
def chainWho (w : World) : Who := { acc := { world := w, sup := true }, party := .other, inner := true }
def hostWho (w : World) (root : Bool) : Who :=
  { acc := { world := w, sup := true, root := root, host := true }, party := .other, inner := true }
/-- What a write of either leaves where its target holds it: the count of commits at its check (R392). -/
def State.outerWait (s : State) : Option Waiter := some (.outer (if s.lark.old.isSome then s.lark.gen - 1 else s.lark.gen))

/-- A write of n bytes at local address x is behind a write held at the engine's target port (R295, R296). -/
def State.storeBehind (s : State) (x n : Nat) : Bool :=
  let fa := s.devId * 2 ^ 31 + x
  s.portShut (s.portFor fa n).1 (s.portFor fa n).2 (s.stopsAt fa n true)

/-- A memory write made by a command, by a master of the command table: the host through its slot (R396); with its answer
recorded. A `pio` access reaches registers only; behind a held write it is not made (log 32). -/
def State.cmdStore (s : State) (m : Master) (x n strobe data : Nat) : State :=
  if s.inReset || (fromHost m && !s.hostUp) then s.answer (.bus 1) else
  if s.storeBehind x n then s.answer .held else
  match m with
  | .pio _ => s.answer (.bus 0)
  | .host i =>
    match s.hostAdmit i (s.devId * 2 ^ 31 + x) n true with
    | (false, s) => s.hostAnswer true (.cap 1)
    | (true, s) =>
      let (r, s) := s.accessFrom (s.whoOf m) newt0 x n true strobe data s.outerWait
      s.hostAnswer true r
  | .chain _ =>
    let (r, s) := s.localAccess (s.whoOf m) x n true strobe data s.outerWait
    s.answer r
  | .alias_ e =>
    let (r, s) := s.accessFrom (s.whoOf m) (engDie e) x n true strobe data none
    s.answer r
  | .dma c =>
    let (r, s) := s.accessFrom (s.whoOf m) (chanDie c) x n true strobe data none
    s.answer r

end Sys2Proof.Machine
end

