-- ==== Sys2Proof/Machine/ChainNet.lean ====
section
/-!
DEFINITION. Machine/ChainNet.lean: chain requests and responses (R303 to R310): sending, forwarding, the access at the own
package, responses delivered to their requester, and VC1 delivery.
-/
namespace Sys2Proof.Machine

/-! ## Words and bytes -/

/-- Words that n bytes take. -/
def wordsOf (n : Nat) : Nat := (n + 3) / 4
/-- The payload of n bytes of data: a last word's bytes past them are open (log 35). -/
def State.payload (s : State) (n data : Nat) : List Word :=
  (List.range (wordsOf n)).map fun i =>
    let w := data % 2 ^ (8 * n) / 2 ^ (32 * i) % 2 ^ 32
    let have_ := min 4 (n - 4 * i)
    BitVec.ofNat 32 (w + (Config.freeWord s.freeCtr).toNat / 2 ^ (8 * have_) * 2 ^ (8 * have_))
/-- The value of payload words, little-endian (R6). -/
def payloadNat (l : List Word) : Nat := leNat (l.flatMap fun w => leBytes 4 w.toNat)

/-! ## Sending -/

/-- A request packet of this package (Tables 10-7 and 10-8). -/
def State.reqPacket (s : State) (wr posted : Bool) (t : Token) (addr n data slot : Nat) : Packet :=
  sealPkt {
    dst := BitVec.ofNat 9 (addr / 2 ^ 31), src := BitVec.ofNat 9 s.devId, vc := if posted then 1 else 2,
    kind := if wr then 1 else 0, len := BitVec.ofNat 8 (wordsOf n), reqid := s.nextReq, status := 0, tok := some t,
    bcast := false, posted := posted, hops := 0, addr := BitVec.ofNat 40 addr,
    data := if wr then s.payload n data else [], crc := 0, slot := slot }

/-- A request leaves for another package with its token; at once an error where no route leads there (status 3) or its bytes
do not fit one packet (log 35). -/
def State.chainAsk (s : State) (who : Asker) (t : Token) (wr : Bool) (addr n data : Nat) : Option Resp × State :=
  match s.chainHop (addr / 2 ^ 31) with
  | none => (some (.bus 1), s)
  | some p =>
    if n = 0 || decide (64 < wordsOf n) then (some (.bus 0), s)
    else
      let k := s.reqPacket wr false t addr n data 0
      let s := (s.draw.sendPkt p k)
      (none, { s with
        nextReq := s.nextReq + 1,
        chainReqs := s.chainReqs ++ [{ reqid := k.reqid, who := who, sent := s.fc, write := wr, addr := addr,
                                        len := n }] })

/-- A 32-byte write in a fabric cycle that the chain transmit port reserves for its master leaves on VC1, posted (R306,
R308). -/
def State.vc1Slot (s : State) (m addr n : Nat) (wr : Bool) : Option PortId :=
  match s.chainHop (addr / 2 ^ 31) with
  | some p => if wr && n == 32 && s.reservedFor (txPort p).1 (txPort p).2 = some m then some p else none
  | none => none
/-- A write leaves on VC1. -/
def State.vc1Send (s : State) (p : PortId) (t : Token) (addr data : Nat) : State :=
  s.sendPkt p (s.reqPacket true true t addr 32 data s.frameFc)

/-! ## Responses -/

/-- The outcome that a response status means (Table 10-9). -/
def statusResp (k : Packet) : Resp :=
  match k.status.toNat with
  | 0 => .ok (payloadNat k.data)
  | 1 => .cap 1
  | _ => .bus 1

/-- A response reaches its requester: the bytes asked for. -/
def State.chainAnswer (s : State) (q : ChainReq) (r : Resp) : State :=
  let r := match r with | .ok v => .ok (v % 2 ^ (8 * q.len)) | r => r
  match q.who with
  | .engine e => s.fabDone (some (.engine e)) r
  | .channel c => s.fabDone (some (.channel c)) r
  | .host _ => s.hostAnswer q.write r

/-- The request that a response names leaves the list of those that wait; nothing where there is none. -/
def State.chainDone (s : State) (reqid : BitVec 16) (r : Resp) : State :=
  match s.chainReqs.find? fun q => q.reqid = reqid with
  | some q => { s with chainReqs := s.chainReqs.filter fun x => x.reqid ≠ reqid }.chainAnswer q r
  | none => s

/-- No response within 2^20 fc (status 4). -/
def State.chainTimeout (s : State) (reqid : BitVec 16) : State :=
  match s.chainReqs.find? fun q => q.reqid = reqid with
  | some q => if q.sent + 2 ^ 20 ≤ s.fc then s.chainDone reqid (.bus 1) else s
  | none => s

/-! ## Packets that arrive -/

/-- A packet of a form that R303 reserves: a TYPE, a channel that its type does not use, LEN above 64, or an ADDR whose device is
not DST. -/
def pktReserved (k : Packet) : Bool :=
  decide (9 ≤ k.kind.toNat) || !(k.vc = 2 || (k.vc = 1 && k.kind = 1 && k.posted)) || decide (64 < k.len.toNat) ||
    fld k.addr 39 31 ≠ k.dst.toNat && (k.kind = 0 || k.kind = 1)

/-- A response packet to a request. -/
def State.rspPacket (s : State) (k : Packet) (status : Nat) (data : List Word) : Packet :=
  sealPkt {
    dst := k.src, src := BitVec.ofNat 9 s.devId, vc := 2, kind := if k.kind = 0 then 2 else 3,
    len := BitVec.ofNat 8 data.length, reqid := k.reqid, status := BitVec.ofNat 4 status, tok := none, bcast := false,
    posted := false, hops := 0, addr := k.addr, data := data, crc := 0, slot := 0 }

/-- A response leaves towards the requester where a route leads there. -/
def State.respond (s : State) (k : Packet) (status : Nat) (data : List Word) : State :=
  match s.chainHop k.src.toNat with
  | some p => s.sendPkt p (s.rspPacket k status data)
  | none => s

/-- A packet for another package goes on (R304): discarded where it has made 255 hops; a request that no route takes is answered
with status 3 (R305). -/
def State.chainForward (s : State) (k : Packet) : State :=
  if 254 ≤ k.hops.toNat then s.chnFlag 13
  else match s.chainHop k.dst.toNat with
    | some p => s.sendPkt p (sealPkt { k with hops := k.hops + 1 })
    | none => if (k.kind = 0 || k.kind = 1) && !k.posted then s.respond k 3 [] else s
/-- Such a packet crosses the package from its port to the transmit port that it leaves by (R22, R304); with a link on that way down
a request is answered with a bus error, and a response is lost (R327). -/
def State.chainCross (s : State) (p : PortId) (k : Packet) : State :=
  match s.chainHop k.dst.toNat with
  | some q =>
    if 254 ≤ k.hops.toNat then s.chainForward k
    else if s.routeDown (chnDie p) (txPort q).1 then
      (if (k.kind = 0 || k.kind = 1) && !k.posted then s.respond k 2 [] else s)
    else match s.sendBeat { master := 0xB8 + p.val, qos := if k.vc = 1 then 15 else 2,
                            route := portsTo (chnDie p) (txPort q).1 (txPort q).2, use := .forward q k } with
      | (true, s) => s.chainForward k
      | (false, s) => s
  | none => s.chainForward k

/-- A POSTED write that fails is counted (R305). -/
def State.chainDrop (s : State) : State := s.n0Mod 0x5808 (bumpFld · 31 16 1)

/-- The status of an error (Table 10-9). -/
def errStatus : Resp → Nat
  | .part | .world | .level | .cap _ => 1
  | _ => 2
/-- The status of a request that ends at once, without a transaction: the partition for its token's object (R391 step 6), a reserved
range (R26), a link that is down (R327). -/
def State.chainCheck (s : State) (p : PortId) (w : World) (k : Packet) : Option Nat :=
  (s.errorAtOnce { acc := accessOf s (.chain w), party := .other } (chnDie p) (k.addr.toNat % 2 ^ 31) (4 * k.len.toNat)
    (k.kind = 1)).map errStatus
/-- The access of a request at its target, in the world of its token's object at the check (R373, R392), with its status. A write that
the target holds is acknowledged as it is held (log 36). -/
def State.chainAccess (s : State) (p : PortId) (w : World) (k : Packet) : Nat × List Word × State :=
  let n := 4 * k.len.toNat
  let wr := k.kind = 1
  match s.accessFrom (chainWho w) (chnDie p) (k.addr.toNat % 2 ^ 31) n wr (fullStrobe n) (payloadNat k.data) s.outerWait with
  | (.ok v, s) => (0, if wr then [] else s.payload n v, s)
  | (.held, s) => (0, [], s)
  | (r, s) => (errStatus r, [], s)

/-- Whether a request carries a token that admits it (R304, R391 steps 1 to 5). -/
def State.chainToken (s : State) (k : Packet) : Option Token :=
  match k.tok with
  | some t => if s.tokCheck t k.addr.toNat (4 * k.len.toNat) (k.kind = 1) then some t else none
  | none => none

/-- The fc of slot i of the frame in which a VC1 packet that arrives now has left: the last that lies a frame and MINDLY back,
which is the shortest way that the port has measured, or the last at all while MINDLY is 0 (R308; log 16). -/
def State.vc1SlotFc (s : State) (p : PortId) (i : Nat) : Nat :=
  let frame := 4 * s.kF
  let min := fld (s.dGet (chnDie p) (chnReg p + 4)) 11 0
  let back := if min = 0 then 0 else frame + min
  let there := (s.frameFc + frame * (back / frame + 1) - back) % frame
  s.fc - back - (there + frame - i % frame) % frame
/-- Fabric cycle at which such a packet is due: i + VC1DLY of the frame after the one of its slot (R308). -/
def State.vc1Due (s : State) (p : PortId) (i : Nat) : Nat := s.vc1SlotFc p i + 4 * s.kF + fld (s.chnPort p) 11 0

/-- A request at its own package: its token is checked once (R304). One of VC1 is held until it is due, or goes on at once where
it is late (R308); the others wait at the port of their target as requests of the chain port (R319, R320). -/
def State.chainBeat (s : State) (p : PortId) (k : Packet) (w : World) : Beat :=
  { master := 0xB8 + p.val, qos := if k.vc = 1 then 15 else 2, behind := s.stopsAt k.addr.toNat (4 * k.len.toNat) (k.kind = 1),
    route := s.wayTo (chnDie p) k.addr.toNat (4 * k.len.toNat), use := .chain p k w }
/-- The access of a request whose token has passed its check, and its response. -/
def State.chainReach (s : State) (p : PortId) (k : Packet) (w : World) : State :=
  let (st, data, s) := s.chainAccess p w k
  if k.posted then (if st = 0 then s else s.chainDrop) else s.respond k st data
/-- A request from port p goes to its target. -/
def State.chainGo (s : State) (p : PortId) (k : Packet) (w : World) : State :=
  match s.sendBeat (s.chainBeat p k w) with
  | (true, s) => s.chainReach p k w
  | (false, s) => s
/-- A request that ends with this status before any access. -/
def State.chainRefuse (s : State) (k : Packet) (st : Nat) : State := if k.posted then s.chainDrop else s.respond k st []
def State.chainServe (s : State) (p : PortId) (k : Packet) : State :=
  match s.chainToken k with
  | none => s.chainRefuse k 1
  | some t =>
    let w := s.tokWorld t
    match s.chainCheck p w k with
    | some st => s.chainRefuse k st
    | none =>
      if k.vc = 1 then
        let due := s.vc1Due p k.slot
        if due < s.fc then (s.chnFlag (4 + p.val)).chainGo p k w
        else s.modPort p fun x => { x with vc1 := x.vc1 ++ [(due, k, w)] }
      else s.chainGo p k w

/-- A packet of VC1 or VC2 arrives (R304, R309): one that fails its CRC is sent again by its sender, but one of VC1 is lost; one
for another package goes on without another check; a reserved form is discarded with BADPKT (R303). -/
def State.chainTake (s : State) (p : PortId) (k : Packet) : State :=
  if !s.ports[p].up then s
  else if !(pktGood k) then (if k.vc = 1 then s.chnFlag (8 + p.val) else s)
  else if k.dst.toNat ≠ s.devId then s.chainCross p k
  else if pktReserved k then s.chnFlag 13
  else if k.kind = 0 || k.kind = 1 then s.chainServe p k
  else s.chainDone k.reqid (statusResp k)
/-- A packet under the command of a type: one of that type, or of a reserved one. -/
def State.chainIn (s : State) (p : PortId) (k : Packet) (kind : Nat) : State :=
  if k.kind.toNat = kind ∨ 9 ≤ k.kind.toNat then s.chainTake p k else s

/-- The oldest VC1 packet that is due goes to its target (R308). -/
def State.vc1Deliver (s : State) (p : PortId) : State :=
  match s.ports[p].vc1 with
  | (due, k, w) :: rest => if due ≤ s.fc then (s.modPort p fun x => { x with vc1 := rest }).chainGo p k w else s
  | [] => s

end Sys2Proof.Machine
end

