-- ==== Sys2Proof/Machine/Xlat.lean ====
section
/-!
DEFINITION. Machine/Xlat.lean: from addresses to the fabric: Trigger-world windows (R381 to R383), Host-service-world pages
(R330 to R333), DMA contexts (R334, R336) and outbound tokens (R394).
-/
namespace Sys2Proof.Machine

/-- Access codes of R332. -/
def accLoad : Nat := 0
def accStore : Nat := 1
def accFetch : Nat := 2
def accWalk : Nat := 3

/-- A translation that failed: cause, CDETAIL and the failing address. -/
structure XFault where
  cause   : Nat
  cdetail : Nat
  addr    : Nat
deriving DecidableEq, Repr

/-- How a translated address finds its outbound token (R394): a window's TV and TOK, or the entry that covers it. -/
inductive TokSel where
  | window (attr : Word)
  | cover
deriving DecidableEq, Repr

/-! ## Windows -/

/-- Fields of window w of engine e in force. -/
structure Win where
  log2 : Nat
  va   : Nat
  pa   : Nat
  attr : Word
deriving DecidableEq, Repr

def Engine.win (g : Engine) (w : Nat) : Win :=
  let p := 0xA00 + 16 * w
  let v := g.effIo p
  { log2 := fld v 4 0, va := v.toNat / 4096 * 4096,
    pa := (g.effIo (p + 4)).toNat / 4096 * 4096 + (g.effIo (p + 8)).toNat % 256 * 2 ^ 32, attr := g.effIo (p + 12) }
def Win.covers (x : Win) (a : Nat) : Bool := decide (12 ≤ x.log2) && a / 2 ^ x.log2 == x.va / 2 ^ x.log2
/-- The lowest-numbered enabled window that covers an address. -/
def Engine.winOf (g : Engine) (a : Nat) : Option (Nat × Win) :=
  ((List.range 16).map fun w => (w, g.win w)).find? fun p => p.2.covers a
/-- The rights bits of an access: R, W, X. -/
def accBit (acc : Nat) : Nat := if acc = 1 then 1 else if acc = 2 then 2 else 0

/-- Translation of [a, a + n) by windows (R381, R382). -/
def Engine.windowXlat (g : Engine) (a n acc : Nat) (sup : Bool) : Except XFault (Nat × TokSel) :=
  match g.winOf a with
  | none => .error { cause := 6, cdetail := 8 + 16 * acc, addr := a }
  | some (w, x) =>
    if !(x.covers (a + n - 1)) then .error { cause := 6, cdetail := 9 + 16 * acc + 64 * w, addr := a }
    else if !(bitOf x.attr (accBit acc)) || (!sup && !(bitOf x.attr 3)) then
      .error { cause := 6, cdetail := 10 + 16 * acc + 64 * w, addr := a }
    else .ok ((x.pa / 2 ^ x.log2 * 2 ^ x.log2 + a % 2 ^ x.log2) % 2 ^ 40, .window x.attr)

/-! ## Pages -/

/-- Bits [hi:lo] of a page-table entry. -/
def pte (v hi lo : Nat) : Nat := v / 2 ^ lo % 2 ^ (hi + 1 - lo)

/-- What a walker has of a table entry: its value, the failure of its read, or the fabric address that it has still to read. -/
inductive PteRead where
  | value (v : Nat)
  | fault (x : XFault)
  | ask (fa : Nat)
deriving DecidableEq, Repr
/-- Outcome of a walk with the entries that have been read: a leaf, a fault, or the address to read next. -/
inductive Walked where
  | leaf (t : TlbEnt)
  | fault (x : XFault)
  | ask (fa : Nat)
deriving DecidableEq, Repr

/-- The answer to a read of n bytes at a fabric address, where it has been made. -/
def answerTo (l : List (Nat × Nat × Resp)) (fa n : Nat) : Option Resp :=
  (l.find? fun q => q.1 == fa && q.2.1 == n).map fun q => q.2.2
/-- The failure of a walk's read (R332, Table 12-1). -/
def walkFault (r : Resp) (va : Nat) : XFault :=
  let mk (cause cd : Nat) : XFault := { cause := cause, cdetail := cd, addr := va }
  match r with
  | .part => mk 6 (11 + 16 * accWalk)
  | .world | .level => mk 6 (12 + 16 * accWalk)
  | .owner c => mk 7 c
  | .cap k => mk 0x0D (k + 16 * accWalk)
  | .bus k => mk 4 (k + 16 * accWalk)
  | _ => mk 4 (16 * accWalk)
/-- A page-table entry of a walk that has the answers l. -/
def readPte (l : List (Nat × Nat × Resp)) (fa va : Nat) : PteRead :=
  match answerTo l fa 8 with
  | none => .ask fa
  | some (.ok v) => .value v
  | some r => .fault (walkFault r va)

/-- A walk of the tables at PTB for a virtual address (R330, Table 11-3): a valid leaf, or cause 0x05 with reasons 1 to 3. -/
def walk (l : List (Nat × Nat × Resp)) (ptb va acc : Nat) : Walked :=
  let bad (r : Nat) : Walked := .fault { cause := 5, cdetail := r + 16 * acc, addr := va }
  match readPte l (ptb * 0x2000 + 8 * (va / 2 ^ 22)) va with
  | .fault x => .fault x
  | .ask fa => .ask fa
  | .value v =>
    let rights : BitVec 4 := BitVec.ofNat 4 (pte v 4 1)
    if pte v 0 0 = 0 then bad 1
    else if pte v 63 40 ≠ 0 || pte v 11 7 ≠ 0 then bad 3
    else if pte v 5 5 = 1 then
      (if pte v 21 12 ≠ 0 then bad 3
       else .leaf { big := true, glob := pte v 6 6 == 1, vpn := va / 2 ^ 22 * 1024, pa := pte v 39 22 * 2 ^ 22, rights := rights })
    else if pte v 6 6 ≠ 0 || pte v 4 1 ≠ 0 || pte v 12 12 ≠ 0 then bad 3
    else match readPte l (pte v 39 12 * 4096 + 8 * (va / 4096 % 1024)) va with
      | .fault x => .fault x
      | .ask fa => .ask fa
      | .value u =>
        if pte u 0 0 = 0 then bad 2
        else if pte u 5 5 = 1 || pte u 63 40 ≠ 0 || pte u 11 7 ≠ 0 then bad 3
        else .leaf { big := false, glob := pte u 6 6 == 1, vpn := va / 4096, pa := pte u 39 12 * 4096,
                     rights := BitVec.ofNat 4 (pte u 4 1) }

/-- Rights of a leaf: bit 0 R, bit 1 W, bit 2 X, bit 3 U (R331); the reason of R332 where one is missing. -/
def TlbEnt.refuses (t : TlbEnt) (acc : Nat) (sup : Bool) : Option Nat :=
  if acc = accStore then
    (if !(bitOf t.rights 1) then some 5 else if !sup && !(bitOf t.rights 3) then some 7 else none)
  else if acc = accFetch then
    (if !(bitOf t.rights 2) || (sup && bitOf t.rights 3) then some 6
     else if !sup && !(bitOf t.rights 3) then some 7 else none)
  else
    (if !(bitOf t.rights 0) then some 4 else if !sup && !(bitOf t.rights 3) then some 7 else none)

/-- Physical address of a virtual one under a leaf. -/
def TlbEnt.phys (t : TlbEnt) (va : Nat) : Nat := t.pa + va % (if t.big then 2 ^ 22 else 4096)

/-- Rights checked and address formed. -/
def TlbEnt.xlat (t : TlbEnt) (va acc : Nat) (sup : Bool) : Except XFault (Nat × TokSel) :=
  match t.refuses acc sup with
  | some r => .error { cause := 6, cdetail := r + 16 * acc, addr := va }
  | none => .ok (t.phys va, .cover)

/-- The page-table base of engine e in force. -/
def Engine.ptb (g : Engine) : Nat := fld (g.effIo 0x8A0) 26 0
/-- The engine's translation of a page, if its buffer holds one. -/
def Engine.tlbHit (g : Engine) (va : Nat) : Option TlbEnt := g.tlb.find? fun t => t.covers (va / 4096)
/-- The engine's buffer of 32 entries takes a translation, round-robin (R333). -/
def Engine.tlbFill (g : Engine) (t : TlbEnt) : Engine :=
  if g.tlb.length < 32 then { g with tlb := g.tlb ++ [t] }
  else { g with tlb := setAt g.tlb (g.tlbNext % 32) t, tlbNext := (g.tlbNext + 1) % 32 }

/-- A leaf that grants the access: a buffer keeps no other (R333). -/
def TlbEnt.kept (t : TlbEnt) (acc : Nat) (sup : Bool) : Option TlbEnt := if (t.refuses acc sup).isNone then some t else none

/-- The table entry that the translation of an engine's access still waits for (R330, R333). -/
def Engine.walkAsks (g : Engine) (a acc : Nat) : Option Nat :=
  if g.world = .H && (g.tlbHit a).isNone then
    (match walk g.tables g.ptb a acc with
     | .ask fa => some fa
     | _ => none)
  else none

/-- The translation of an engine's access [a, a + n), and the leaf to keep where its buffer missed and a walk has found one. An
access whose walk is not complete has no translation yet. -/
def State.engXlat (s : State) (e : EngineId) (a n acc : Nat) (sup : Bool) : Except XFault (Nat × TokSel) × Option TlbEnt :=
  let g := s.eng e
  match g.world with
  | .T => (g.windowXlat a n acc sup, none)
  | .H =>
    match g.tlbHit a with
    | some t => (t.xlat a acc sup, none)
    | none =>
      match walk g.tables g.ptb a acc with
      | .fault x => (.error x, none)
      | .leaf t => (t.xlat a acc sup, t.kept acc sup)
      | .ask _ => (.error { cause := 0, cdetail := 0, addr := a }, none)

/-- Whether an access of the engine needs a walk first. -/
def Engine.needsWalk (g : Engine) (a : Nat) : Bool := g.world = .H && (g.tlbHit a).isNone

/-! ## Outbound tokens (R394, R24) -/

/-- The token of an access to another device id: cause 0x0D where there is none, then cause 0x04 while the own id is not set. -/
def State.outToken (s : State) (w : World) (sel : TokSel) (fa n acc : Nat) (va : Nat) : Except XFault Token :=
  let t := match sel with
    | .window attr => s.windowToken attr
    | .cover => s.coverToken w fa n
  match t with
  | none => .error { cause := 0x0D, cdetail := 2 + 16 * acc, addr := va }
  | some t => if bitOf (s.n0 0x5800) 31 then .ok t else .error { cause := 4, cdetail := 16 * acc, addr := va }

/-! ## DMA contexts (R334, R336) -/

/-- The leaf of a channel's page in the IOMMU of its die, tagged by its context (R336). -/
def State.iommuHit (s : State) (c : ChanId) (a : Nat) : Option TlbEnt :=
  ((s.die (chanDie c)).iommu.find? fun p => p.1 == s.dma[c].context && p.2.covers (a / 4096)).map (·.2)
/-- PTB of a channel's context. -/
def State.dmaPtb (s : State) (c : ChanId) : Nat := fld (s.dGet (chanDie c) (0x7804 + 8 * s.dma[c].context)) 26 0
/-- The table entry that the translation of a channel's access still waits for. -/
def State.dmaAsks (s : State) (c : ChanId) (a acc : Nat) : Option Nat :=
  let d := chanDie c
  let ctx := s.dma[c].context
  if s.ctxPhys d ctx || s.ctxWorld d ctx = .T || (s.iommuHit c a).isSome then none
  else match walk s.dma[c].tables (s.dmaPtb c) a acc with
    | .ask fa => some fa
    | _ => none
/-- The translation of [a, a + n) for a channel, and the leaf to keep where a walk has found one. Whether a Newt has an IOMMU:
Table 1-1 lists one for a Gecko only and R336 gives one to each die; R336 is followed (DESIGN CHOICE, log 78). -/
def State.dmaXlat (s : State) (c : ChanId) (a n acc : Nat) : Except XFault (Nat × TokSel) × Option TlbEnt :=
  let d := chanDie c
  let ctx := s.dma[c].context
  let w := s.ctxWorld d ctx
  if s.ctxPhys d ctx then (.ok (a, .cover), none)
  else match w with
    | .T => ((s.eng (s.ctxEngine d ctx)).windowXlat a n acc false, none)
    | .H =>
      match s.iommuHit c a with
      | some t => (t.xlat a acc false, none)
      | none =>
        match walk s.dma[c].tables (s.dmaPtb c) a acc with
        | .fault x => (.error x, none)
        | .leaf t => (t.xlat a acc false, t.kept acc false)
        | .ask _ => (.error { cause := 0, cdetail := 0, addr := a }, none)

/-- The IOMMU's buffer of 512 entries takes a translation; the oldest leaves a full one (log 33). -/
def State.iommuFill (s : State) (d : DieId) (ctx : Nat) (t : TlbEnt) : State :=
  s.modDie d fun x => { x with iommu := (if x.iommu.length < 512 then x.iommu else x.iommu.tail) ++ [(ctx, t)] }

/-- A translation found by a walk is kept. -/
def State.keepDma (s : State) (c : ChanId) (t : Option TlbEnt) : State :=
  match t with
  | some t => s.iommuFill (chanDie c) s.dma[c].context t
  | none => s
def State.keepEng (s : State) (e : EngineId) (t : Option TlbEnt) : State :=
  match t with
  | some t => s.modEng e (·.tlbFill t)
  | none => s

end Sys2Proof.Machine
end

