-- ==== Sys2Proof/Machine/CmdChain.lean ====
section
/-!
DEFINITION. Machine/CmdChain.lean: requests and responses of the chain fabric (R303 to R310) and the requests of the PCIe host
(R396).
-/
namespace Sys2Proof.Machine

/-- RD. -/
def execRd (p : PortId) (k : Packet) (s : State) : Out := .next (s.chainIn p k 0)
/-- WR. -/
def execWr (p : PortId) (k : Packet) (s : State) : Out := .next (s.chainIn p k 1)
/-- RDRSP. -/
def execRdrsp (p : PortId) (k : Packet) (s : State) : Out := .next (s.chainIn p k 2)
/-- WRRSP. -/
def execWrrsp (p : PortId) (k : Packet) (s : State) : Out := .next (s.chainIn p k 3)
/-- CHAIN_RESPONSE_TIMEOUT. -/
def execChainResponseTimeout (reqid : BitVec 16) (s : State) : Out := .next (s.chainTimeout reqid)
/-- VC1_DELIVERY. -/
def execVc1Delivery (p : PortId) (s : State) : Out := .next (s.vc1Deliver p)

/-- A host request on its way from Newt 0 to its target, or to the transmit port of another package (R320). -/
def State.hostBeat (s : State) (i : SlotId) (a n : Nat) (wr : Bool) (data : Nat) : Beat :=
  let m := accessOf s (.host i)
  { master := 0xC8, qos := 4, behind := s.stopsAt a n wr, route := s.wayTo newt0 a n, use := .host i a wr n data m.world m.root }
/-- It is there: the access at its target under the check that it has passed, or the request to the other package with its token. -/
def State.hostReach (s : State) (i : SlotId) (a : Nat) (wr : Bool) (n data : Nat) (w : World) (root : Bool) : State :=
  if s.isLocal a then
    let (r, s) := s.accessFrom (hostWho w root) newt0 (a % 2 ^ 31) n wr (fullStrobe n) data s.outerWait
    s.hostAnswer wr r
  else match s.chainAsk (.host i) (s.slotToken i) wr a n data with
    | (some r, s) => s.hostAnswer wr r
    | (none, s) => s.answer .held
/-- It leaves. -/
def State.hostGo (s : State) (i : SlotId) (a n : Nat) (wr : Bool) (data : Nat) : State :=
  let m := accessOf s (.host i)
  match s.sendBeat (s.hostBeat i a n wr data) with
  | (true, s) => s.hostReach i a wr n data m.world m.root
  | (false, s) => s.answer .held

/-- A host request through a slot to another package: the object, the range and the rights of its token are checked here, and
the token goes with the request (R396). -/
def State.hostRemote (s : State) (i : SlotId) (a n : Nat) (wr : Bool) (data : Nat) : State :=
  let t := s.slotToken i
  let r := tokRights t
  if !(s.slotBound i) || s.hslots[i].stale then s.hostAnswer wr (.cap 1)
  else if !(s.tokSealed t && s.tokObject t) then (s.modSlot i fun h => { h with stale := true }).hostAnswer wr (.cap 1)
  else if !(bitOf r (if wr then rWR else rRD)) then s.hostAnswer wr (.cap 1)
  else if !(bitOf (s.n0 0x5800) 31) then s.hostAnswer wr (.bus 0)
  else if s.wayDown newt0 a n then s.hostAnswer wr (.bus 1)
  else match s.chainHop (a / 2 ^ 31) with
    | some _ => s.hostGo i a n wr data
    | none => s.hostAnswer wr (.bus 1)

/-- A host request of n bytes at offset x of slot i (R396): fabric address BASE + x, inside the token's range; an error of its own
has an answer at once (R26). A request beyond the payload of one packet is none (R447). -/
def State.hostReq (s : State) (i : SlotId) (x : Nat) (wr : Bool) (n data : Nat) : State :=
  let t := s.slotToken i
  let a := tokBase t + x
  if !s.hostUp || (wr && decide (256 < n)) then s.answer (.bus 1)
  else if n = 0 || decide (2 ^ tokLog t < x + n) then s.hostAnswer wr (.cap 1)
  else if !(s.isLocal a) then s.hostRemote i a n wr data
  else match s.hostAdmit i a n wr with
    | (false, s) => s.hostAnswer wr (.cap 1)
    | (true, s) => match s.errorAtOnce (s.whoOf (.host i)) newt0 (a % 2 ^ 31) n wr with
      | some r => s.hostAnswer wr r
      | none => s.hostGo i a n wr data
/-- HOST_REQUEST. -/
def execHostRequest (i : SlotId) (x : Nat) (write : Bool) (len : Nat) (data : Nat) (s : State) : Out :=
  .next (s.hostReq i x write len data)

end Sys2Proof.Machine
end

