-- ==== Sys2Proof/Machine/Flags.lean ====
section
/-!
DEFINITION. Machine/Flags.lean: the four arithmetic flags (R101) and the clamps and roundings that set them (R105, R106, R109).
-/
namespace Sys2Proof.Machine

/-- The flags of one result in the order of ASTAT: V bit 0, C bit 1, DZ bit 2, SAT bit 3 (R101). -/
abbrev Flags := BitVec 4

/-- A flag nibble from its four parts. -/
def mkFlags (v c dz sat : Bool) : Flags :=
  BitVec.ofNat 4 (b2n v + 2 * b2n c + 4 * b2n dz + 8 * b2n sat)

def flagsNone : Flags := 0#4

/-- Signed overflow of a + b: same signs and the result's sign differs (R105). -/
def addV (a b r : Word) : Bool := a.msb == b.msb && r.msb != a.msb
/-- Carry of a + b: the unsigned sum exceeds 0xFFFF_FFFF (R105). -/
def addC (a b : Word) : Bool := decide (2 ^ 32 ≤ a.toNat + b.toNat)
/-- Signed overflow of a − b: signs differ and the result's sign differs from a's (R105). -/
def subV (a b r : Word) : Bool := a.msb != b.msb && r.msb != a.msb
/-- Borrow of a − b (R105). -/
def subC (a b : Word) : Bool := decide (a.toNat < b.toNat)

/-- The integer clamped to n signed bits (R106, R142). -/
def clampS (n : Nat) (x : Int) : Int :=
  if x < -(2 ^ (n - 1) : Int) then -(2 ^ (n - 1) : Int)
  else if (2 ^ (n - 1) : Int) - 1 < x then (2 ^ (n - 1) : Int) - 1 else x

/-- Whether the clamp to n signed bits changes the integer (R106). -/
def clamps (n : Nat) (x : Int) : Bool := decide (clampS n x ≠ x)

/-- x / 2^k rounded to the nearest integer, a tie going to the even integer (R109, R143). -/
def roundEven (x : Int) (k : Nat) : Int :=
  let d : Int := 2 ^ k
  let q := Int.fdiv x d
  let r2 := 2 * (x - q * d)
  if r2 < d then q else if d < r2 then q + 1 else if Int.emod q 2 = 0 then q else q + 1

/-- A saturated 32-bit signed result with its SAT flag. -/
def sat32 (x : Int) : Word × Flags :=
  (BitVec.ofInt 32 (clampS 32 x), mkFlags false false false (clamps 32 x))

end Sys2Proof.Machine
end

