-- ==== Sys2Proof/Machine/Alu.lean ====
section
/-!
DEFINITION. Machine/Alu.lean: the 36 operations of alu0 and alu1 (R104 to R107, Table 4-1).
-/
namespace Sys2Proof.Machine

/-- The ALU operations in the order of their opcodes, 0 to 35 (Table 4-1). -/
inductive AluOp where
  | add | sub | neg | adds | subs | negs | addt | subt | negt | abs | abss
  | and | or | xor | andn | nor | shl | shr | sar | rol | ror
  | min | max | minu | maxu | cmpeq | cmpne | cmplt | cmple | cmpltu | cmpleu
  | pass | sxb | sxh | zxb | zxh
deriving DecidableEq, Repr

/-- The operations, opcode order. -/
def aluOps : List AluOp :=
  [.add, .sub, .neg, .adds, .subs, .negs, .addt, .subt, .negt, .abs, .abss,
   .and, .or, .xor, .andn, .nor, .shl, .shr, .sar, .rol, .ror,
   .min, .max, .minu, .maxu, .cmpeq, .cmpne, .cmplt, .cmple, .cmpltu, .cmpleu,
   .pass, .sxb, .sxh, .zxb, .zxh]

/-- The ALU operation of an opcode (Table 4-1). -/
def aluOfCode (n : Nat) : Option AluOp := aluOps[n]?

/-- The opcode of an ALU operation (Table 4-1). -/
def AluOp.code : AluOp → Nat
  | .add => 0 | .sub => 1 | .neg => 2 | .adds => 3 | .subs => 4 | .negs => 5 | .addt => 6 | .subt => 7
  | .negt => 8 | .abs => 9 | .abss => 10 | .and => 11 | .or => 12 | .xor => 13 | .andn => 14 | .nor => 15
  | .shl => 16 | .shr => 17 | .sar => 18 | .rol => 19 | .ror => 20 | .min => 21 | .max => 22 | .minu => 23
  | .maxu => 24 | .cmpeq => 25 | .cmpne => 26 | .cmplt => 27 | .cmple => 28 | .cmpltu => 29 | .cmpleu => 30
  | .pass => 31 | .sxb => 32 | .sxh => 33 | .zxb => 34 | .zxh => 35

/-- All ones where the relation holds, else 0 (Table 4-1). -/
def maskW (p : Bool) : Word := if p then 0xFFFFFFFF#32 else 0#32

/-- The signed value of the smallest 32-bit number, the one whose negation does not fit (R105). -/
def minWord : Word := 0x80000000#32

/-- Shift count of an ALU shift: b[7:0] (R107). -/
def shiftCount (b : Word) : Nat := b.toNat % 256

/-- The result and the flags of an ALU operation on operand ports a and b (R104 to R107). -/
def aluEval : AluOp → Word → Word → Word × Flags
  | .add, a, b | .addt, a, b => (a + b, mkFlags (addV a b (a + b)) (addC a b) false false)
  | .sub, a, b | .subt, a, b => (a - b, mkFlags (subV a b (a - b)) (subC a b) false false)
  | .neg, _, b | .negt, _, b => (0#32 - b, mkFlags (b == minWord) false false false)
  | .adds, a, b => sat32 (a.toInt + b.toInt)
  | .subs, a, b => sat32 (a.toInt - b.toInt)
  | .negs, _, b => sat32 (-b.toInt)
  | .abs, _, b => (if b.msb then 0#32 - b else b, mkFlags (b == minWord) false false false)
  | .abss, _, b => sat32 (if b.msb then -b.toInt else b.toInt)
  | .and, a, b => (a &&& b, flagsNone)
  | .or, a, b => (a ||| b, flagsNone)
  | .xor, a, b => (a ^^^ b, flagsNone)
  | .andn, a, b => (a &&& ~~~b, flagsNone)
  | .nor, a, b => (~~~(a ||| b), flagsNone)
  | .shl, a, b => (a <<< shiftCount b, flagsNone)
  | .shr, a, b => (a >>> shiftCount b, flagsNone)
  | .sar, a, b => (a.sshiftRight (shiftCount b), flagsNone)
  | .rol, a, b => (a.rotateLeft (shiftCount b % 32), flagsNone)
  | .ror, a, b => (a.rotateRight (shiftCount b % 32), flagsNone)
  | .min, a, b => (if BitVec.slt b a then b else a, flagsNone)
  | .max, a, b => (if BitVec.slt a b then b else a, flagsNone)
  | .minu, a, b => (if BitVec.ult b a then b else a, flagsNone)
  | .maxu, a, b => (if BitVec.ult a b then b else a, flagsNone)
  | .cmpeq, a, b => (maskW (a == b), flagsNone)
  | .cmpne, a, b => (maskW (a != b), flagsNone)
  | .cmplt, a, b => (maskW (BitVec.slt a b), flagsNone)
  | .cmple, a, b => (maskW (!BitVec.slt b a), flagsNone)
  | .cmpltu, a, b => (maskW (BitVec.ult a b), flagsNone)
  | .cmpleu, a, b => (maskW (!BitVec.ult b a), flagsNone)
  | .pass, _, b => (b, flagsNone)
  | .sxb, _, b => ((b.setWidth 8).signExtend 32, flagsNone)
  | .sxh, _, b => ((b.setWidth 16).signExtend 32, flagsNone)
  | .zxb, _, b => (b &&& 0xFF#32, flagsNone)
  | .zxh, _, b => (b &&& 0xFFFF#32, flagsNone)

/-- The trap-enabled ALU operations trap on V (R103). -/
def AluOp.traps : AluOp → Bool
  | .addt | .subt | .negt => true
  | _ => false

end Sys2Proof.Machine
end

