-- ==== Sys2Proof/Machine/MulDiv.lean ====
section
/-!
DEFINITION. Machine/MulDiv.lean: the operations of mul (R108, R109) and div (R110, R111).
-/
namespace Sys2Proof.Machine

/-- Multiply operations in opcode order, 0 to 8 (Table 4-2). -/
inductive MulOp where
  | mul | mulhs | mulhu | mult | muls | mac | macs | mulq31 | mulq15
deriving DecidableEq, Repr

/-- The multiply operation of an opcode (Table 4-2). -/
def mulOfCode (n : Nat) : Option MulOp :=
  [MulOp.mul, .mulhs, .mulhu, .mult, .muls, .mac, .macs, .mulq31, .mulq15][n]?

/-- The opcode of a multiply operation (Table 4-2). -/
def MulOp.code : MulOp → Nat
  | .mul => 0 | .mulhs => 1 | .mulhu => 2 | .mult => 3 | .muls => 4 | .mac => 5 | .macs => 6
  | .mulq31 => 7 | .mulq15 => 8

/-- The result and flags of a multiply on operand ports a, b and c (R108, R109). -/
def mulEval : MulOp → Word → Word → Word → Word × Flags
  | .mul, a, b, _ => (a * b, flagsNone)
  | .mulhs, a, b, _ => (BitVec.ofInt 32 (Int.fdiv (a.toInt * b.toInt) (2 ^ 32)), flagsNone)
  | .mulhu, a, b, _ => (BitVec.ofNat 32 (a.toNat * b.toNat / 2 ^ 32), flagsNone)
  | .mult, a, b, _ => (a * b, mkFlags (clamps 32 (a.toInt * b.toInt)) false false false)
  | .muls, a, b, _ => sat32 (a.toInt * b.toInt)
  | .mac, a, b, c => (c + a * b, flagsNone)
  | .macs, a, b, c => sat32 (c.toInt + a.toInt * b.toInt)
  | .mulq31, a, b, _ => sat32 (roundEven (a.toInt * b.toInt) 31)
  | .mulq15, a, b, _ =>
    let p := roundEven ((a.setWidth 16).toInt * (b.setWidth 16).toInt) 15
    (BitVec.ofInt 32 (clampS 16 p), mkFlags false false false (clamps 16 p))

/-- The trigger of mac and macs carries c; every other multiply's carries b (Table 4-2, R98). -/
def MulOp.lastIsC : MulOp → Bool
  | .mac | .macs => true
  | _ => false

/-- Divide operations in opcode order, 0 to 4 (Table 4-3). -/
inductive DivOp where
  | divs | divu | divss | divt | divut
deriving DecidableEq, Repr

/-- The divide operation of an opcode (Table 4-3). -/
def divOfCode (n : Nat) : Option DivOp := [DivOp.divs, .divu, .divss, .divt, .divut][n]?

/-- The opcode of a divide operation (Table 4-3). -/
def DivOp.code : DivOp → Nat
  | .divs => 0 | .divu => 1 | .divss => 2 | .divt => 3 | .divut => 4

/-- Whether the divide is unsigned (Table 4-3). -/
def DivOp.unsigned : DivOp → Bool
  | .divu | .divut => true
  | _ => false

/-- Quotient, remainder and flags of a divide (R110, R111): a signed quotient is truncated toward zero. -/
def divEval (op : DivOp) (a b : Word) : Word × Word × Flags :=
  if b = 0#32 then (0xFFFFFFFF#32, a, mkFlags false false true false)
  else if op.unsigned then (BitVec.ofNat 32 (a.toNat / b.toNat), BitVec.ofNat 32 (a.toNat % b.toNat), flagsNone)
  else if a = 0x80000000#32 ∧ b = 0xFFFFFFFF#32 then
    if op = .divss then (0x7FFFFFFF#32, 0#32, mkFlags false false false true)
    else (0x80000000#32, 0#32, mkFlags true false false false)
  else
    let q := Int.tdiv a.toInt b.toInt
    (BitVec.ofInt 32 q, a - BitVec.ofInt 32 q * b, flagsNone)

/-- The condition on which a trap-enabled divide traps: V or DZ for divt, DZ for divut (R103). -/
def divTraps (op : DivOp) (f : Flags) : Bool :=
  match op with
  | .divt => bitOf f 0 || bitOf f 2
  | .divut => bitOf f 2
  | _ => false

end Sys2Proof.Machine
end

