-- ==== Sys2Proof/Machine/VecOps.lean ====
section
/-!
DEFINITION. Machine/VecOps.lean: the operations of vec, element by element (R133 to R143, Tables 5-2 and 5-3).
-/
namespace Sys2Proof.Machine

/-- Element width in bits (Table 5-1). -/
def vsBits : VSize → Nat
  | .b => 8 | .h => 16 | .w => 32
/-- Element width in bytes. -/
def vsBytes : VSize → Nat
  | .b => 1 | .h => 2 | .w => 4
/-- Elements per vector (Table 5-1). -/
def vsCount : VSize → Nat
  | .b => 16 | .h => 8 | .w => 4
/-- Size code of a vec opcode (Table 5-1). -/
def vsCode : VSize → Nat
  | .b => 0 | .h => 1 | .w => 2
def vsizeOfCode (n : Nat) : Option VSize := [VSize.b, .h, .w][n]?

/-- Sized operations, k = 0 to 15 (Table 5-2). -/
inductive VecK where
  | vadd | vsub | vadds | vsubs | vmul | vmulq | vmac | vmacq | vmin | vmax | vshl | vshr | vsar
  | vcmpeq | vcmplt | vcmpltu
deriving DecidableEq, Repr

/-- Operations without a size, opcodes 48 to 63 (Table 5-3). -/
inductive VecU where
  | vand | vor | vxor | vsel | vsplatb | vsplath | vsplatw | vwsxbh | vwsxhw | vnsh | vnsw
  | vrsumb | vrsumh | vrsumw | vrmaxh | vrpopc
deriving DecidableEq, Repr

/-- A vec operation: sized or not. -/
inductive VecOp where
  | sized (k : VecK) (z : VSize)
  | plain (u : VecU)
deriving DecidableEq, Repr

def vecKs : List VecK :=
  [.vadd, .vsub, .vadds, .vsubs, .vmul, .vmulq, .vmac, .vmacq, .vmin, .vmax, .vshl, .vshr, .vsar,
   .vcmpeq, .vcmplt, .vcmpltu]
def vecUs : List VecU :=
  [.vand, .vor, .vxor, .vsel, .vsplatb, .vsplath, .vsplatw, .vwsxbh, .vwsxhw, .vnsh, .vnsw,
   .vrsumb, .vrsumh, .vrsumw, .vrmaxh, .vrpopc]

def VecK.code : VecK → Nat
  | .vadd => 0 | .vsub => 1 | .vadds => 2 | .vsubs => 3 | .vmul => 4 | .vmulq => 5 | .vmac => 6 | .vmacq => 7
  | .vmin => 8 | .vmax => 9 | .vshl => 10 | .vshr => 11 | .vsar => 12 | .vcmpeq => 13 | .vcmplt => 14
  | .vcmpltu => 15
def VecU.code : VecU → Nat
  | .vand => 48 | .vor => 49 | .vxor => 50 | .vsel => 51 | .vsplatb => 52 | .vsplath => 53 | .vsplatw => 54
  | .vwsxbh => 55 | .vwsxhw => 56 | .vnsh => 57 | .vnsw => 58 | .vrsumb => 59 | .vrsumh => 60 | .vrsumw => 61
  | .vrmaxh => 62 | .vrpopc => 63

/-- Opcode: 16 × size code + k, or 48 to 63 (R140, R141). -/
def VecOp.code : VecOp → Nat
  | .sized k z => 16 * vsCode z + k.code
  | .plain u => u.code

/-- The vec operation of an opcode, 0 to 63: every one is defined (R140, R141). -/
def vecOfCode (n : Nat) : Option VecOp :=
  if n < 48 then
    match vecKs[n % 16]?, vsizeOfCode (n / 16) with
    | some k, some z => some (.sized k z)
    | _, _ => none
  else (vecUs[n - 48]?).map .plain

/-- The latency class of a vec operation: the add class, the multiply class, the reduction class. -/
inductive VecClass where
  | add | mul | red
deriving DecidableEq, Repr

def VecOp.cls : VecOp → VecClass
  | .sized .vmul _ | .sized .vmulq _ | .sized .vmac _ | .sized .vmacq _ => .mul
  | .sized _ _ => .add
  | .plain .vrsumb | .plain .vrsumh | .plain .vrsumw | .plain .vrmaxh | .plain .vrpopc => .red
  | .plain _ => .add

/-- Which operand port the trigger value goes to: c where the operand list ends in c, else b (R35, R98). -/
def VecOp.lastIsC : VecOp → Bool
  | .sized .vmac _ | .sized .vmacq _ | .plain .vsel => true
  | _ => false

/-- Element i of n bits, unsigned (R133). -/
def velt (n : Nat) (x : Vec) (i : Nat) : BitVec n := BitVec.ofNat n (x.toNat / 2 ^ (n * i))

/-- A vector number from its elements of n bits, element 0 first. -/
def vjoin (n : Nat) : List (BitVec n) → Nat
  | [] => 0
  | e :: es => e.toNat + 2 ^ n * vjoin n es

/-- Shift count of an element: its bits [7:0] (R142). -/
def vcount {n : Nat} (b : BitVec n) : Nat := b.toNat % 256

/-- One element of a sized operation: its result and whether it clamped (R140 to R143). -/
def vecElt (k : VecK) {n : Nat} (a b c : BitVec n) : BitVec n × Bool :=
  let sat (x : Int) : BitVec n × Bool := (BitVec.ofInt n (clampS n x), clamps n x)
  match k with
  | .vadd => (a + b, false)
  | .vsub => (a - b, false)
  | .vadds => sat (a.toInt + b.toInt)
  | .vsubs => sat (a.toInt - b.toInt)
  | .vmul => (a * b, false)
  | .vmulq => sat (roundEven (a.toInt * b.toInt) (n - 1))
  | .vmac => (c + a * b, false)
  | .vmacq => sat (c.toInt + roundEven (a.toInt * b.toInt) (n - 1))
  | .vmin => (if BitVec.slt b a then b else a, false)
  | .vmax => (if BitVec.slt a b then b else a, false)
  | .vshl => (a <<< vcount b, false)
  | .vshr => (a >>> vcount b, false)
  | .vsar => (a.sshiftRight (vcount b), false)
  | .vcmpeq => (if a == b then BitVec.allOnes n else 0, false)
  | .vcmplt => (if BitVec.slt a b then BitVec.allOnes n else 0, false)
  | .vcmpltu => (if BitVec.ult a b then BitVec.allOnes n else 0, false)

/-- Whether a sized operation delivers a byte-lane mask (R139). -/
def VecK.isCmp : VecK → Bool
  | .vcmpeq | .vcmplt | .vcmpltu => true
  | _ => false

/-- The byte-lane mask of a vector of all-ones or zero elements: bit j is the low bit of lane j (R139). -/
def laneMask (x : Nat) : Nat :=
  sumNat ((List.range 16).map fun j => b2n (x.testBit (8 * j)) * 2 ^ j)

/-- A sized operation on whole vectors: the result and the SAT flag (R139, R140, R142). -/
def vecSized (k : VecK) (z : VSize) (a b c : Vec) : Vec × Flags :=
  let n := vsBits z
  let rs := (List.range (vsCount z)).map fun i => vecElt k (velt n a i) (velt n b i) (velt n c i)
  let r := vjoin n (rs.map Prod.fst)
  (BitVec.ofNat 128 (if k.isCmp then laneMask r else r), mkFlags false false false (rs.any Prod.snd))

/-- vsel: lane j from b where c[j] = 1, else from a (R137, R138). -/
def vecSel (a b c : Vec) : Vec :=
  BitVec.ofNat 128 (vjoin 8 ((List.range 16).map fun j => if bitOf c j then velt 8 b j else velt 8 a j))

/-- Elements of b widened with their sign from n to 2n bits, the low half of them (R134). -/
def vecWiden (n : Nat) (b : Vec) : Vec :=
  BitVec.ofNat 128 (vjoin (2 * n) ((List.range (64 / n)).map fun i => (velt n b i).signExtend (2 * n)))

/-- Elements of b saturated from 2n to n signed bits in lanes 0 to 7, with SAT (R134, R142). -/
def vecNarrow (n : Nat) (b : Vec) : Vec × Flags :=
  let es := (List.range (64 / n)).map fun i => (velt (2 * n) b i).toInt
  (BitVec.ofNat 128 (vjoin n (es.map fun x => BitVec.ofInt n (clampS n x))),
   mkFlags false false false (es.any (clamps n)))

/-- Sum of integers. -/
def sumInt (l : List Int) : Int := l.foldl (· + ·) 0

/-- Operations without a size: result and flags (R141, Table 5-3; scalar results stand in q[31:0], R136). -/
def vecPlain (u : VecU) (a b c : Vec) : Vec × Flags :=
  let scal (x : Word) : Vec × Flags := (x.setWidth 128, flagsNone)
  match u with
  | .vand => (a &&& b, flagsNone)
  | .vor => (a ||| b, flagsNone)
  | .vxor => (a ^^^ b, flagsNone)
  | .vsel => (vecSel a b c, flagsNone)
  | .vsplatb => (BitVec.ofNat 128 (vjoin 8 (List.replicate 16 (velt 8 b 0))), flagsNone)
  | .vsplath => (BitVec.ofNat 128 (vjoin 16 (List.replicate 8 (velt 16 b 0))), flagsNone)
  | .vsplatw => (BitVec.ofNat 128 (vjoin 32 (List.replicate 4 (velt 32 b 0))), flagsNone)
  | .vwsxbh => (vecWiden 8 b, flagsNone)
  | .vwsxhw => (vecWiden 16 b, flagsNone)
  | .vnsh => vecNarrow 8 b
  | .vnsw => vecNarrow 16 b
  | .vrsumb => scal (BitVec.ofNat 32 (sumNat ((List.range 16).map fun i => (velt 8 b i).toNat)))
  | .vrsumh => scal (BitVec.ofInt 32 (sumInt ((List.range 8).map fun i => (velt 16 b i).toInt)))
  | .vrsumw =>
    let r := sat32 (sumInt ((List.range 4).map fun i => (velt 32 b i).toInt))
    (r.1.setWidth 128, r.2)
  | .vrmaxh =>
    scal (BitVec.ofInt 32 ((List.range 8).foldl (fun m i => max m (velt 16 b i).toInt) (-32768)))
  | .vrpopc => scal (BitVec.ofNat 32 (popCount b 128))

/-- A vec operation on ports a, b and c. -/
def vecEval (op : VecOp) (a b c : Vec) : Vec × Flags :=
  match op with
  | .sized k z => vecSized k z a b c
  | .plain u => vecPlain u a b c

end Sys2Proof.Machine
end

