-- ==== Sys2Proof/Machine/EngCode.lean ====
section
/-!
DEFINITION. Machine/EngCode.lean: the encoding of a bundle (R73 to R84), the reasons that make it illegal (R43, R44, R59, R62,
R86, R87), privilege (R45, R85), and the sockets that moves read and write (R36, R39, R40).
-/
namespace Sys2Proof.Machine

/-! ## Moves -/

/-- Source of a move: a socket, or an immediate or wide literal as the 128-bit value it puts on the bus (R40, R78, R80). -/
inductive Src where
  | sock (unit port : Nat)
  | imm (v : Vec)
deriving DecidableEq, Repr

/-- A move: its slot, guard code, source and destination (R76). -/
structure Move where
  slot  : Nat
  guard : Nat
  src   : Src
  dunit : Nat
  dport : Nat
deriving DecidableEq, Repr

/-- Move slot i of a bundle (R73). -/
def slotBits (b : W256) (i : Nat) : BitVec 30 := BitVec.ofNat 30 (fld b (30 * i + 29) (30 * i))
/-- Slot i is part of a wide literal pair (R75). -/
def inPair (b : W256) (i : Nat) : Bool := (fld b 243 240).testBit (i / 2)
/-- The empty slot (R81). -/
def emptySlot : BitVec 30 := 0x20000000#30

/-- The move that slot i carries (R76 to R81). -/
def slotMove (b : W256) (i : Nat) : Option Move :=
  let w := slotBits b i
  let mk (x : Src) : Move :=
    { slot := i, guard := fld w 29 26, src := x, dunit := fld w 13 2 / 128, dport := fld w 13 2 % 128 }
  if inPair b i then
    if i % 2 = 0 then some (mk (.imm (BitVec.ofNat 128 (fld w 25 14 + fld (slotBits b (i + 1)) 19 0 * 4096)))) else none
  else if w = emptySlot then none
  else if bitOf w 25 then
    some (mk (.imm (((BitVec.ofNat 11 (fld w 24 14)).signExtend 32).setWidth 128)))
  else some (mk (.sock (fld w 24 21) (fld w 20 14)))

/-! ## Ports (R82 to R84) -/

/-- Operand ports of a functional unit (Table 3-3). -/
def operandPorts (u : Nat) : Nat :=
  if u = 5 ∨ u = 7 ∨ u = 10 ∨ u = 11 then 3
  else if u = 8 ∨ u = 15 then 1
  else if 3 ≤ u ∧ u ≤ 14 then 2 else 0

/-- A port that a move can read (Tables 3-3 and 3-4). -/
def srcPort (u p : Nat) : Bool :=
  if u = 0 then decide (p < 32)
  else if u = 1 then decide (p < 16)
  else if u = 2 then decide (p < 8)
  else decide (p < operandPorts u) || p == 8 || (u == 6 && p == 9) || (u == 8 && (p == 16 || p == 17 || p == 18))

/-- A port that a move can write, a trigger port of any opcode among them. -/
def dstPort (u p : Nat) : Bool :=
  if 3 ≤ u ∧ 64 ≤ p then true else srcPort u p && !(u == 8 && p == 18)

/-- The opcodes of a functional unit (R84, Tables 3-5, 4-1 to 4-10, 5-2 to 5-4). -/
def knownOp (u n : Nat) : Bool :=
  match u with
  | 3 | 4 => decide (n < 36)
  | 5 => decide (n < 9)
  | 6 => decide (n < 5)
  | 7 => decide (n < 9)
  | 8 => decide (n < 8)
  | 9 => decide (n < 7) || n == 8 || n == 9 || n == 10
  | 10 => decide (n < 3) || within n 8 10 || within n 16 24 || within n 32 34 || within n 36 38 || within n 40 42
  | 11 => decide (n < 64)
  | 12 | 13 => decide (n < 2)
  | 14 => decide (n < 4)
  | 15 => n == 0 || n == 17 || n == 21 || n == 22 || n == 23
  | _ => false

/-- The operand port that receives the trigger value of an operation, if it has an operand (R35, R98). -/
def lastPort (u n : Nat) : Option Nat :=
  match u with
  | 3 | 4 | 6 | 7 | 12 => some 1
  | 5 => some (if n = 5 ∨ n = 6 then 2 else 1)
  | 8 => if n = 4 ∨ n = 7 then none else some 0
  | 9 | 10 | 13 | 15 => some 0
  | 11 => (vecOfCode n).map fun o => if o.lastIsC then 2 else 1
  | 14 => if n < 2 then none else some 1
  | _ => none

/-- The operand ports that an operation reads as they stand, beside the one that its trigger value carries (R98, Tables 4-1 to
4-10 and 5-2 to 5-4). -/
def standingPorts (u n : Nat) : List Nat :=
  match u with
  | 3 | 4 => if n = 2 ∨ n = 5 ∨ within n 8 10 ∨ 31 ≤ n then [] else [0]
  | 5 => if n = 5 ∨ n = 6 then [0, 1] else [0]
  | 6 => [0]
  | 7 => if n < 2 then [0] else if n = 2 ∨ n = 8 then [0, 2] else []
  | 9 => if n < 7 then [] else [1]
  | 10 =>
    if n < 2 then [] else if n = 2 ∨ within n 36 38 then [2]
    else if n = 10 ∨ within n 32 34 ∨ within n 40 42 then [1, 2] else [1]
  | 11 => if 52 ≤ n then [] else if (vecOfCode n).any (·.lastIsC) then [0, 1] else [0]
  | 12 => if n = 0 then [] else [0]
  | 13 => if n = 0 then [] else [1]
  | 14 => if n < 2 then [] else [0]
  | _ => []

/-- Whether a move is a trigger, and of which opcode. -/
def Move.op (m : Move) : Option Nat := if 3 ≤ m.dunit ∧ 64 ≤ m.dport then some (m.dport - 64) else none

/-- The destinations that a move counts for in R43; (u, 64) stands for every trigger port of unit u. -/
def Move.dests (m : Move) : List (Nat × Nat) :=
  match m.op with
  | none => [(m.dunit, m.dport)]
  | some n =>
    (m.dunit, 64) :: ((lastPort m.dunit n).map fun p => (m.dunit, p)).toList ++
      (if m.dunit = 8 ∧ (n = 2 ∨ n = 3) then [(8, 17)] else [])

/-- Distinct elements. -/
def distinct : List Nat → List Nat
  | [] => []
  | a :: as => if as.contains a then distinct as else a :: distinct as

/-- Registers of file f that moves read as sources, and write. -/
def regReads (ms : List Move) (f : Nat) : List Nat :=
  distinct (ms.filterMap fun m => match m.src with | .sock u p => if u = f then some p else none | .imm _ => none)
def regWrites (ms : List Move) (f : Nat) : List Nat := distinct (ms.filterMap fun m => if m.dunit = f then some m.dport else none)
/-- Moves within the port counts of R39, counted as in R44. -/
def portsOk (ms : List Move) : Bool :=
  decide ((regReads ms 0).length ≤ 4) && decide ((regWrites ms 0).length ≤ 4) &&
  decide ((regReads ms 1).length ≤ 3) && decide ((regWrites ms 1).length ≤ 2) &&
  decide ((regReads ms 2).length ≤ 4) && decide ((regWrites ms 2).length ≤ 2)

/-! ## Bundles -/

/-- A decoded bundle: header fields, moves in slot order, the reason and slot that make it illegal, and its first privileged
trigger (Tables 3-1 and 3-6). -/
structure Bundle where
  repn  : Nat := 0
  timed : Bool := false
  np    : Bool := false
  moves : List Move := []
  bad   : Option (Nat × Nat) := none
  priv  : Option Nat := none
deriving DecidableEq, Repr

/-- The first move of a list that shares a destination with one before it (R43). -/
def sharedDest (seen : List (Nat × Nat)) : List Move → Option Nat
  | [] => none
  | m :: ms => if m.dests.any seen.contains then some m.slot else sharedDest (seen ++ m.dests) ms
/-- The first move with which the moves exceed a port count (R44). -/
def overPorts (before : List Move) : List Move → Option Nat
  | [] => none
  | m :: ms => if portsOk (before ++ [m]) then overPorts (before ++ [m]) ms else some m.slot

/-- The slot that reports reason r of Table 3-6, where the bundle meets it. -/
def illegalSlot (b : W256) (ms : List Move) (r : Nat) : Option Nat :=
  let slots := List.range 8
  let first (p : Move → Bool) : Option Nat := (ms.find? p).map (·.slot)
  let wide := fld b 243 240
  match r with
  | 1 => slots.find? fun i => !(inPair b i && i % 2 == 1) && fld (slotBits b i) 1 0 != 0
  | 2 => if fld b 246 244 ≠ 0 then some 0 else none
  | 3 => if bitOf b 248 != (wide != 0) then some 0 else none
  | 4 => slots.find? fun i => inPair b i && i % 2 == 1 && fld (slotBits b i) 29 20 != 0
  | 5 => first fun m => decide (16 ≤ m.dunit)
  | 6 => first fun m => decide (m.dunit < 16) && !(dstPort m.dunit m.dport) ||
           (match m.src with | .sock u p => !(srcPort u p) | .imm _ => false)
  | 7 => first fun m => match m.op with | some n => decide (m.dunit < 16) && !(knownOp m.dunit n) | none => false
  | 8 => sharedDest [] ms
  | 9 => overPorts [] ms
  | 10 => if ms.any fun m => m.dunit == 8 && m.op == some 5 then first fun m => m.dunit == 8 && m.dport == 16 else none
  | 11 => if fld b 255 250 = 0 then none else first fun m => m.dunit == 8 && m.op.isSome
  | _ => none

/-- The reason and slot of an illegal bundle: the lowest reason (R87). -/
def illegal (b : W256) (ms : List Move) : Option (Nat × Nat) :=
  (List.range 11).findSome? fun i => (illegalSlot b ms (i + 1)).map fun j => (i + 1, j)

/-- A privileged trigger (R85). -/
def Move.priv (m : Move) : Bool :=
  match m.op with
  | some n => m.dunit == 13 || (m.dunit == 8 && n == 7) || (m.dunit == 15 && within n 21 23)
  | none => false

/-- A bundle decoded (R73 to R88). -/
def decodeBundle (b : W256) : Bundle :=
  let ms := (List.range 8).filterMap (slotMove b)
  { repn := fld b 255 250, timed := bitOf b 249, np := bitOf b 247, moves := ms, bad := illegal b ms,
    priv := (ms.find? (·.priv)).map (·.slot) }

/-! ## Sockets -/

/-- The value that a socket holds, zero-extended to the bus (R36, R39, R40). -/
def Engine.readSock (g : Engine) (u p : Nat) : Vec :=
  if u = 0 then (g.gr.getD p 0).setWidth 128
  else if u = 1 then g.vr.getD p 0
  else if u = 2 then (if p = 0 then 0xFFFF else (g.pr.getD p 0).setWidth 128)
  else if u = 8 ∧ p = 16 then g.lc.setWidth 128
  else if u = 8 ∧ p = 17 then g.ra.setWidth 128
  else if u = 8 ∧ p = 18 then g.pc.setWidth 128
  else
    let x := g.unit u
    if p = 0 then x.a else if p = 1 then x.b else if p = 2 then x.c else if p = 9 then x.q1 else x.q

/-- A result port of unit u, 8 or 9, with a value cut to its width. -/
def Engine.putResult (g : Engine) (u p : Nat) (v : Vec) : Engine :=
  let x := g.unit u
  let v := v &&& portMask u 3
  g.setUnit u (if p = 9 then { x with q1 := v } else { x with q := v })

/-- A result port has received a value in the present schedule cycle (R213). -/
def HazRec.receive (h : HazRec) (u p : Nat) : HazRec :=
  { h with seen := (16 * u + (p - 8), 0) :: h.seen.filter fun x => x.1 ≠ 16 * u + (p - 8) }

/-- A move writes a socket (R37, R39, R40): a result port that receives a result in the same cycle keeps that. -/
def Engine.writeSock (g : Engine) (u p : Nat) (v : Vec) : Engine :=
  if u = 0 then { g with gr := g.gr.setIfInBounds p (v.setWidth 32) }
  else if u = 1 then { g with vr := g.vr.setIfInBounds p v }
  else if u = 2 then (if p = 0 then g else { g with pr := g.pr.setIfInBounds p (v.setWidth 16) })
  else if u = 8 ∧ p = 16 then { g with lc := v.setWidth 32 }
  else if u = 8 ∧ p = 17 then { g with ra := v.setWidth 32 }
  else if p = 8 ∨ p = 9 then
    (if g.arrived.contains u || g.came.contains u then g else { g.putResult u p v with haz := g.haz.receive u p })
  else
    let x := g.unit u
    let v := v &&& portMask u p
    g.setUnit u (if p = 0 then { x with a := v } else if p = 1 then { x with b := v } else { x with c := v })

/-- A guard's test on the predicates (R52). -/
def Engine.guard (g : Engine) (code : Nat) : Bool := bitOf (g.readSock 2 (code % 8)) 0 != code.testBit 3

/-- What a bundle reads in vector register n: a structure load's value only from the cycle after its write (R46, R147). -/
def Engine.vrRead (g : Engine) (n : Nat) : Vec :=
  match g.vrOld.find? fun q => q.1 == n with
  | some q => q.2
  | none => g.vr.getD n 0
/-- The value that a move puts on its bus (R42 step 1). -/
def Engine.srcVal (g : Engine) (x : Src) : Vec :=
  match x with
  | .sock u p => if u = 1 then g.vrRead p else g.readSock u p
  | .imm v => v

/-- Step 2 of R42 for one move: its destination is written, a trigger's last operand port among them (R35). -/
def Engine.moveWrite (g : Engine) (m : Move) (v : Vec) : Engine :=
  match m.op with
  | some n => (match lastPort m.dunit n with | some p => g.writeSock m.dunit p v | none => g)
  | none => g.writeSock m.dunit m.dport v

end Sys2Proof.Machine
end

