-- ==== Sys2Proof/Machine/EngMem.lean ====
section
/-!
DEFINITION. Machine/EngMem.lean: the accesses of `lsu` and `vlsu` operations (R116 to R120, R144 to R151), their translation and
checks (R26, R165, R378 to R382, R394), and the caches and store buffer of the throughput modes (R180 to R183).
-/
namespace Sys2Proof.Machine

/-! ## Operations (Tables 4-5 and 5-4) -/

/-- A load of `lsu` or `vlsu`. -/
def memLoad (u n : Nat) : Bool := if u = 9 then decide (n < 7) else decide (n < 3) || within n 16 38
def isMem (u : Nat) : Bool := u == 9 || u == 10
/-- Structure loads and element sequences. -/
def isStruct (u n : Nat) : Bool := u == 10 && within n 16 24
def isSeq (u n : Nat) : Bool := u == 10 && within n 32 42
/-- Bytes of an element of a sequence, and its number of elements (Table 5-1). -/
def seqBytes (n : Nat) : Nat := 2 ^ (n % 4)
def seqCount (n : Nat) : Nat := 16 / seqBytes n
/-- Fields of a structure load, and bytes of its elements. -/
def structK (n : Nat) : Nat := 2 + (n - 16) / 3
def structBytes (n : Nat) : Nat := 2 ^ ((n - 16) % 3)
/-- Bytes of an `lsu` access. -/
def lsuBytes (n : Nat) : Nat := if n = 4 ∨ n = 6 ∨ n = 10 then 4 else if n = 2 ∨ n = 3 ∨ n = 5 ∨ n = 9 then 2 else 1
/-- Required alignment of a `vlsu` access (R145). -/
def vlsuAlign (n : Nat) : Nat := if n = 1 ∨ n = 9 then 8 else if n < 32 then 16 else seqBytes n
/-- Bytes of a whole access. -/
def memBytes (u n : Nat) : Nat :=
  if u = 9 then lsuBytes n else if n = 1 ∨ n = 9 then 8 else if within n 16 24 then 16 * structK n else 16
/-- Latency class on the own scratchpad (Table 7-1). -/
def memClass (u n : Nat) : Nat :=
  if u = 9 then (if n < 7 then 5 else 22)
  else if n < 3 then 13 else if n < 16 then 23
  else if n < 19 then 14 else if n < 25 then 15
  else if n < 40 then 16 + n % 4 else 24 + n % 4

/-- Element i of `vlsu.b` or `vlsu.c`, of so many bytes. -/
def seqElt (v : Vec) (bytes i : Nat) : Nat := v.toNat / 2 ^ (8 * bytes * i) % 2 ^ (8 * bytes)

/-- The data-space address at which an `lsu` access begins: the rotate forms take the aligned base (Table 4-5). -/
def lsuBase (n : Nat) (a : Word) : Nat := if n = 5 then a.toNat / 2 * 2 else if n = 6 then a.toNat / 4 * 4 else a.toNat
/-- Bytes of the first part of an `lsu` access, and whether it crosses a doubleword (R118). -/
def lsuFirst (n : Nat) (a : Word) : Nat := min (lsuBytes n) (8 - lsuBase n a % 8)
def lsuCrosses (n : Nat) (a : Word) : Bool := decide (lsuFirst n a < lsuBytes n)

/-- The accesses of an `lsu` operation, lower half first (R118, R175). -/
def lsuParts (n : Nat) (a : Word) (data : Nat) : List MemPart :=
  let k := lsuFirst n a
  let base : Word := BitVec.ofNat 32 (lsuBase n a)
  let off := a.toNat % lsuBytes n
  { va := base, len := k, strobe := fullStrobe k, data := data % 2 ^ (8 * k), elem := 0, off := off } ::
    (if lsuCrosses n a then
      [{ va := base + BitVec.ofNat 32 k, len := lsuBytes n - k, strobe := fullStrobe (lsuBytes n - k),
         data := data / 2 ^ (8 * k) % 2 ^ (8 * (lsuBytes n - k)), elem := 0, off := off }]
    else [])

/-- Address of element i of a sequence (R149). -/
def seqAddr (n : Nat) (p : UnitPorts) (i : Nat) : Word :=
  let z := seqBytes n
  p.a.setWidth 32 + BitVec.ofNat 32
    (if n < 36 then seqElt p.b z i * (p.c.toNat % 2 ^ 32)
     else if n < 40 then i * (p.c.toNat % 2 ^ 32)
     else seqElt p.c z i * z)

/-- The accesses of a `vlsu` operation (Table 5-4, R146, R147, R149). -/
def vlsuParts (n : Nat) (p : UnitPorts) : List MemPart :=
  let a : Word := p.a.setWidth 32
  if n < 16 then
    let len := memBytes 10 n
    [{ va := a, len := len, strobe := if n = 2 ∨ n = 10 then fld p.c 15 0 else fullStrobe len, data := p.b.toNat % 2 ^ (8 * len),
       elem := 0 }]
  else if n < 25 then
    (List.range (structK n)).map fun j =>
      { va := a + BitVec.ofNat 32 (16 * j), len := 16, strobe := fullStrobe 16, data := 0, elem := j }
  else
    (List.range (seqCount n)).map fun i =>
      { va := seqAddr n p i, len := seqBytes n, strobe := fullStrobe (seqBytes n),
        data := if n < 40 then 0 else seqElt p.b (seqBytes n) i, elem := i }

/-- The accesses of an operation with its operand ports as they stand. -/
def memParts (u n : Nat) (p : UnitPorts) : List MemPart :=
  if u = 9 then lsuParts n (p.a.setWidth 32) p.b.toNat else vlsuParts n p

/-! ## Results -/

/-- The bytes that the strobes name, the others 0. -/
def maskBytes (n strobe v : Nat) : Nat :=
  leNat ((List.range n).map fun j => if strobe.testBit j then BitVec.ofNat 8 (v / 2 ^ (8 * j)) else 0)

/-- The value of an `lsu` load from the bytes at its base (Table 4-5). -/
def lsuValue (n : Nat) (a : Word) (raw : Nat) : Word :=
  match n with
  | 0 => (BitVec.ofNat 8 raw).signExtend 32
  | 1 => BitVec.ofNat 32 (raw % 2 ^ 8)
  | 2 => (BitVec.ofNat 16 raw).signExtend 32
  | 3 => BitVec.ofNat 32 (raw % 2 ^ 16)
  | 5 => ((BitVec.ofNat 16 raw).rotateRight (8 * (a.toNat % 2))).setWidth 32
  | 6 => (BitVec.ofNat 32 raw).rotateRight (8 * (a.toNat % 4))
  | _ => BitVec.ofNat 32 raw

/-- What an `lsu` or plain `vlsu` load or a sequence delivers to q from the bytes of its accesses, oldest first. -/
def loadValue (u n : Nat) (a : Word) (got : List Nat) : Vec :=
  if u = 9 then (lsuValue n a (got.getD 0 0 + got.getD 1 0 * 2 ^ (8 * lsuFirst n a))).setWidth 128
  else if n < 16 then BitVec.ofNat 128 (got.getD 0 0)
  else BitVec.ofNat 128 (vjoin (8 * seqBytes n) (got.map fun v => BitVec.ofNat (8 * seqBytes n) v))

/-- Register j of a structure load: element i is memory element k i + j (R147). -/
def structReg (n : Nat) (got : List Nat) (j : Nat) : Vec :=
  let z := 8 * structBytes n
  let all := sumNat ((List.range got.length).map fun i => got.getD i 0 * 2 ^ (128 * i))
  BitVec.ofNat 128 (vjoin z ((List.range (128 / z)).map fun i => BitVec.ofNat z (all / 2 ^ (z * (structK n * i + j)))))
/-- The registers of a structure load, first field first. -/
def structVals (n : Nat) (got : List Nat) : List Vec := (List.range (structK n)).map (structReg n got)

/-! ## Where an access goes -/

/-- A fault of an access: `vlsu` has its own CDETAIL for the causes 0x03 to 0x05 (R151, Table 12-1; log 80). -/
def memFault (u n elem cause : Nat) (va : Word) (cd : Nat) : OpFault :=
  { cause := cause, faddr := va, cdetail := BitVec.ofNat 32 (if u = 10 ∧ 3 ≤ cause ∧ cause ≤ 5 then elem % 16 + 16 + 32 * n else cd) }
/-- The access code of R332. -/
def accOf (load : Bool) : Nat := if load then accLoad else accStore

/-- The bank of the own scratchpad that does not admit its engine: Skink gives a borrowed bank back (R165, R197). -/
def State.ownRefused (s : State) (e : EngineId) (x n : Nat) : Option Nat :=
  (banksOf x n).find? fun b => !(s.borrowed e b) && !(s.bankAdmits e b (.eng e))

/-- The checks of one access: alignment, translation and rights, partition, target range, owner code or outbound token. The
rotator and the split never serve a register (R178). -/
def State.resolve (s : State) (e : EngineId) (u n : Nat) (p : MemPart) : Except OpFault Spot :=
  let load := memLoad u n
  let acc := accOf load
  let bad (cause cd : Nat) : Except OpFault Spot := .error (memFault u n p.elem cause p.va cd)
  let req (fa : Nat) (tok : Token) : FabReq :=
    { write := !load, addr := fa, len := p.len, strobe := p.strobe, data := if load then 0 else p.data, token := tok.toNat,
      va := p.va, sup := (s.eng e).sup }
  if u = 10 ∧ p.va.toNat % vlsuAlign n ≠ 0 then bad 3 0
  else if p.strobe = 0 then .ok .none
  else if ((s.eng e).walkAsks p.va.toNat acc).isSome then .ok .walk
  else match (s.engXlat e p.va.toNat p.len acc (s.eng e).sup).1 with
  | .error x => bad x.cause x.cdetail
  | .ok (fa, sel) =>
    if p.off ≠ 0 && inAlias (fa % 2 ^ 31) then bad 4 0
    else if s.isLocal fa then
      let x := fa % 2 ^ 31
      if spadEngine x = some e then
        match s.ownRefused e x p.len with
        | some b => bad 7 ((s.eng e).owner b)
        | none => .ok (.own x)
      else match s.masterCheck (s.engWho e) x p.len (!load) with
        | some .part => bad 6 (11 + 16 * acc)
        | some (.bus k) => bad 4 k
        | some _ => bad 4 0
        | none => .ok (.fab (req fa 0))
    else match s.outToken (s.world e) sel fa p.len acc p.va.toNat with
      | .error x => bad x.cause x.cdetail
      | .ok t => .ok (.fab (req fa t))

/-- An access with the outcome of its checks, and those of an operation. -/
def MemPart.settle (p : MemPart) (r : Except OpFault Spot) : MemPart :=
  match r with
  | .ok x => { p with spot := x, bad := none }
  | .error f => { p with bad := some f }
def settled (ps : List MemPart) (rs : List (Except OpFault Spot)) : List MemPart := (ps.zip rs).map fun q => q.1.settle q.2

/-- Outcomes of a list of accesses: the first fault, whether any leaves the own scratchpad, and the own banks used. -/
def firstFault : List (Except OpFault Spot) → Option OpFault
  | [] => none
  | .error f :: _ => some f
  | .ok _ :: l => firstFault l
def anyFab (l : List (Except OpFault Spot)) : Bool := l.any fun r => match r with | .ok (.fab _) | .ok .walk => true | _ => false
/-- The bank of the own scratchpad that holds local address x. -/
def ownBank (x : Nat) : Nat := (x - 0x10000000) % 0x40000 / 0x4000
def ownBanks (l : List (Except OpFault Spot)) : List Nat :=
  l.filterMap fun r => match r with | .ok (.own x) => some (ownBank x) | _ => none

/-- A response's error as a fault of an access (Table 12-1, Table 10-9, R374, R380). -/
def respFault (u n elem : Nat) (load : Bool) (va : Word) (r : Resp) : OpFault :=
  let acc := accOf load
  match r with
  | .bus k => memFault u n elem 4 va k
  | .owner c => memFault u n elem 7 va c
  | .part => memFault u n elem 6 va (11 + 16 * acc)
  | .world | .level => memFault u n elem 6 va (12 + 16 * acc)
  | .cap c => memFault u n elem 0x0D va (c + 16 * acc)
  | _ => memFault u n elem 4 va 0

/-! ## The own scratchpad -/

/-- Bytes about to be replaced, kept for an operation in flight that is older than the store (R119). -/
def shadowAdd (m : Memory) (x n strobe : Nat) (h : SMap Byte) : SMap Byte :=
  (List.range n).foldl (fun h j =>
    if strobe.testBit j && !(h.any fun q => q.1 == x + j) then smIns h (x + j) (memByte m (x + j)) else h) h
/-- The n bytes v read at x, with those that a shadow keeps. -/
def shadowed (h : SMap Byte) (x n v : Nat) : Nat :=
  leNat ((List.range n).map fun j =>
    match h.find? fun q => q.1 == x + j with
    | some q => q.2
    | none => BitVec.ofNat 8 (v / 2 ^ (8 * j)))

/-- The accesses that an operation has still to make. -/
def Op.left (o : Op) : List MemPart :=
  match o.act with
  | .seq _ ps _ | .mem _ ps _ => ps
  | _ => []
/-- Whether it is a load. -/
def Op.loads (o : Op) : Bool := memLoad o.unit o.opcode

/-- What an own store o leaves to note: the bytes that it replaces, for every access still to be made by a load triggered in the
same schedule cycle or before, and by an older store (R119). -/
def Engine.noteStore (g : Engine) (m : Memory) (o : Op) (x n strobe : Nat) : Engine :=
  { g with inflight := g.inflight.map fun p =>
      if !p.left.isEmpty && (if p.loads then decide (p.cyc ≤ o.cyc) else decide (p.id < o.id)) then
        { p with shadow := shadowAdd m x n strobe p.shadow }
      else p }
/-- The bytes v that a load o finds at x: a store triggered in an earlier schedule cycle that has not written them yet supplies its
data (R119, R146). -/
def Engine.olderData (g : Engine) (o : Op) (x n v : Nat) : Nat :=
  let put (v : Nat) (q : MemPart) : Nat :=
    match q.spot with
    | .own y => leNat ((List.range n).map fun j =>
        if decide (y ≤ x + j) && decide (x + j < y + q.len) && q.strobe.testBit (x + j - y) then
          BitVec.ofNat 8 (q.data / 2 ^ (8 * (x + j - y)))
        else BitVec.ofNat 8 (v / 2 ^ (8 * j)))
    | _ => v
  ((g.inflight.filter fun p => decide (p.cyc < o.cyc) && !p.loads && p.fault.isNone).flatMap (·.left)).foldl put v
/-- Strobes of the bytes at x that no younger store has written (R119). -/
def oldStrobe (h : SMap Byte) (x n strobe : Nat) : Nat :=
  sumNat ((List.range n).map fun j => if strobe.testBit j && !(h.any fun q => q.1 == x + j) then 2 ^ j else 0)

/-- An access of operation o of the engine's own units to its own scratchpad, in its port ec: it has started at its trigger, under
the owner codes of that time (R168). A load takes what the stores triggered before it have left, and the bytes of a younger store
stay (R119). -/
def State.ownAccess (s : State) (e : EngineId) (o : Op) (p : MemPart) (x : Nat) : Resp × State :=
  if o.loads then
    match s.spadCells e (.eng e) x p.len false p.strobe 0 with
    | (.ok v, s) => (.ok (maskBytes p.len p.strobe (shadowed o.shadow x p.len ((s.eng e).olderData o x p.len v))), s)
    | r => r
  else
    let st := oldStrobe o.shadow x p.len p.strobe
    (s.modEng e (·.noteStore s.mem o x p.len st)).spadCells e (.eng e) x p.len true st p.data
/-- The accesses of an operation to the own scratchpad start: Skink gives back the banks that it holds of them (R168, R197). -/
def State.startOwn (s : State) (e : EngineId) (ps : List (MemPart × Nat)) : State :=
  forAll ps s fun q t => (t.yieldFor e q.2 q.1.len (.eng e)).touchBanks e q.2 q.1.len

/-- Hold ec that the yields of borrowed banks add (R197). -/
def State.yieldHold (s : State) (e : EngineId) (banks : List Nat) : Nat := if banks.any (s.borrowed e) then 2 else 0

/-! ## Caches and store buffer (R180 to R183) -/

/-- Pool and remote addresses, whose stores the store buffer takes (R182). -/
def State.poolOrFar (s : State) (fa : Nat) : Bool := !(s.isLocal fa) || decide (fa % 2 ^ 31 < 0x0C000000)
/-- Those that the data cache serves: no register of another package (R180). -/
def State.cacheable (s : State) (fa : Nat) : Bool := s.poolOrFar fa && !(inAlias (fa % 2 ^ 31))
/-- An engine whose stores enter the buffer: in a throughput mode, while no acknowledged change leads out of it (R180, R249). -/
def Engine.buffering (g : Engine) : Bool := throughput g.mode && !g.leaving
/-- A store whose accesses have these outcomes enters the buffer whole: all go to Pool or to remote addresses, and none reaches a
byte that an older store has still to write. -/
def State.buffers (s : State) (e : EngineId) (l : List (Except OpFault Spot)) : Bool :=
  let g := s.eng e
  let ahead := (g.inflight.filter fun o => !o.loads && o.fault.isNone).flatMap (·.left)
  let meets (q : FabReq) : Bool := ahead.any fun p => match p.spot with
    | .fab r => decide (q.addr < r.addr + p.len) && decide (r.addr < q.addr + q.len)
    | _ => false
  g.buffering && !l.isEmpty && l.all fun r => match r with | .ok (.fab q) => s.poolOrFar q.addr && !(meets q) | _ => false

/-- A line in a cache; its n bytes at fabric address a. -/
def lineOf (c : List CLine) (a : Nat) : Option CLine := c.find? fun l => l.line == a / 64
def CLine.bytes (l : CLine) (a n : Nat) : Nat := leNat ((l.data.drop (a % 64)).take n)
/-- A line filled into a cache of 128 sets of 4 ways; a full set gives one up at a choice the manual leaves open (R180). -/
def cacheFill (c : List CLine) (l : CLine) (draw : Nat) : List CLine :=
  let c := c.filter fun x => x.line ≠ l.line
  let set := c.filter fun x => x.line % 128 == l.line % 128
  match set[Config.victim draw % 4]? with
  | some v => if 4 ≤ set.length then c.filter (fun x => x.line ≠ v.line) ++ [l] else c ++ [l]
  | none => c ++ [l]
/-- A store updates a line that it hits (R180). -/
def lineStore (c : List CLine) (a n strobe data : Nat) : List CLine :=
  c.map fun l =>
    if l.line = a / 64 then
      { l with data := (List.range n).foldl (fun d j =>
          if strobe.testBit j then setAt d (a % 64 + j) (BitVec.ofNat 8 (data / 2 ^ (8 * j))) else d) l.data }
    else l

/-- A buffered store shares a byte with [a, a + n). -/
def SbEnt.overlaps (b : SbEnt) (a n : Nat) : Bool :=
  a / 16 == b.block && (List.range n).any fun j => b.mask.testBit (a % 16 + j)
/-- It holds every byte of [a, a + n). -/
def SbEnt.holds (b : SbEnt) (a n : Nat) : Bool :=
  a / 16 == b.block && (List.range n).all fun j => b.mask.testBit (a % 16 + j)

/-- What the store buffer says to a load of [fa, fa + n): nothing, the data of its youngest overlapping entry, or wait (R183). A
masked store serves only a load of bytes that it wrote (log 46). -/
inductive SbSays where
  | free
  | data (v : Nat)
  | wait
deriving DecidableEq, Repr
def sbLook (l : List SbEnt) (takes : Bool) (va n fa len : Nat) : SbSays :=
  match (l.filter fun b => b.overlaps fa len).getLast? with
  | none => .free
  | some b =>
    if takes && b.addr == va && b.len == n && b.holds fa len then .data (b.data / 2 ^ (8 * (fa % 16)) % 2 ^ (8 * len)) else .wait

/-- The entry that one access of a store takes. -/
def sbEntry (va n : Nat) (r : FabReq) : SbEnt :=
  { block := r.addr / 16, mask := r.strobe * 2 ^ (r.addr % 16), data := r.data % 2 ^ (8 * r.len) * 2 ^ (8 * (r.addr % 16)),
    addr := va, len := n, token := r.token }
/-- The request that drains an entry. -/
def SbEnt.request (b : SbEnt) : FabReq :=
  { write := true, addr := 16 * b.block, len := 16, strobe := b.mask, data := b.data, token := b.token,
    va := BitVec.ofNat 32 b.addr }
/-- A store enters the buffer: one entry for each access, with the drain that each will need (R182, R318). -/
def Engine.sbEnter (g : Engine) (va n : Nat) (rs : List FabReq) : Engine :=
  let bs := rs.map (sbEntry va n)
  { g with
    sbuf := g.sbuf ++ bs
    fabQ := g.fabQ ++ bs.map fun b => (b.request, .drain)
    dcache := rs.foldl (fun c r => lineStore c r.addr r.len r.strobe r.data) g.dcache }

/-! ## Service of a variable-latency access -/

/-- Whether a fill of a line is asked for. -/
def Engine.filling (g : Engine) (instr : Bool) (line : Nat) : Bool :=
  let is : FabUse → Bool := fun u => match u with | .fill i l => i == instr && l == line | _ => false
  g.fabQ.any (fun q => is q.2) || g.fabOut.any (fun f => is f.use)
/-- Ask for a fill. -/
def Engine.askFill (g : Engine) (instr : Bool) (r : FabReq) : Engine :=
  if g.filling instr (r.addr / 64) then g
  else
    let g := if instr then g else g.ioPut 0x894 (bumpFld (g.ioGet 0x894) 31 16 1)
    { g with fabQ := g.fabQ ++ [({ r with write := false, addr := r.addr / 64 * 64, len := 64, strobe := fullStrobe 64, data := 0 },
        .fill instr (r.addr / 64))] }
/-- An older operation has still to make an access that shares a byte with request r, and one of the two is a store (R119,
R146). -/
def Engine.olderUses (g : Engine) (id : Nat) (r : FabReq) : Bool :=
  g.inflight.any fun o => decide (o.id < id) && o.fault.isNone && (r.write || !o.loads) && o.left.any fun p =>
    match p.spot with
    | .fab q => decide (q.addr < r.addr + r.len) && decide (r.addr < q.addr + p.len)
    | _ => false
/-- A request of this operation waits or is outstanding. -/
def Engine.asking (g : Engine) (id : Nat) : Bool :=
  g.fabQ.any (fun q => q.2 == .op id) || g.fabOut.any (fun f => f.use == .op id)

/-- Outcome of the service of the accesses that remain. -/
inductive Served where
  | more (parts : List MemPart) (got : List Nat)
  | fault (f : OpFault)
deriving DecidableEq, Repr

/-- Whether a load takes data from a buffered store: masked loads and sequences do not (R183). -/
def takesBuffered (u n : Nat) : Bool := !(u == 10 && (n == 2 || decide (32 ≤ n)))

/-- The age from which an operation may make an access: that of its element in a sequence (R149), and on the own scratchpad that of
its port ec (Table 6-3). -/
def Op.dueAt (o : Op) (p : MemPart) : Nat :=
  if isSeq o.unit o.opcode then 3 + p.elem else match p.spot with | .own _ => 1 + p.elem | _ => 0
/-- A request of the operation joins the engine's, ahead of the others where the operation has had one already (R177). -/
def Engine.askOp (g : Engine) (o : Op) (first : Bool) (r : FabReq) : Engine :=
  if g.asking o.id then g
  else { g with fabQ := if first then g.fabQ ++ [(r, .op o.id)] else (r, .op o.id) :: g.fabQ }
/-- What the buffer and the cache of a throughput mode have of a load's access: its data, a wait, a line to fill, or nothing. -/
inductive Near where
  | data (v : Nat)
  | wait
  | fill
  | miss
deriving DecidableEq, Repr
def State.near (s : State) (e : EngineId) (o : Op) (p : MemPart) (r : FabReq) : Near :=
  let g := s.eng e
  if !o.loads || !(throughput g.mode) || !(s.poolOrFar r.addr) then .miss
  else match sbLook g.sbuf (takesBuffered o.unit o.opcode) o.arg (memBytes o.unit o.opcode) r.addr p.len with
  | .data v => .data v
  | .wait => .wait
  | .free =>
    if !(s.cacheable r.addr) then .miss
    else match lineOf g.dcache r.addr with
    | some l => .data (maskBytes p.len p.strobe (l.bytes r.addr p.len))
    | none => if o.direct then .miss else .fill

/-- Serve the accesses of an operation in turn as far as the own scratchpad, whose port takes k of them, the store buffer and the
data cache can; the next one makes its request (R170, R177, R318). -/
def serveParts : Nat → List MemPart → List Nat → State → EngineId → Op → Served × State
  | _, [], got, s, _, _ => (.more [] got, s)
  | k, p :: rest, got, s, e, o =>
    if o.age < o.dueAt p then (.more (p :: rest) got, s)
    else match p.bad, p.spot with
    | some f, _ => (.fault f, s)
    | none, .walk => (.more (p :: rest) got, s)
    | none, .none => serveParts k rest (got ++ [0]) s e o
    | none, .own x =>
      if k = 0 then (.more (p :: rest) got, s)
      else match s.ownAccess e o p x with
      | (.ok v, s) => serveParts (k - 1) rest (got ++ [v]) s e o
      | (r, s) => (.fault (respFault o.unit o.opcode p.elem o.loads p.va r), s)
    | none, .fab r =>
      if (s.eng e).olderUses o.id r then (.more (p :: rest) got, s)
      else match s.near e o p r with
      | .data v => serveParts k rest (got ++ [v]) s e o
      | .wait => (.more (p :: rest) got, s)
      | .fill => (.more (p :: rest) got, s.modEng e (·.askFill false r))
      | .miss => (.more (p :: rest) got, s.modEng e (·.askOp o got.isEmpty r))

/-! ## Table reads -/

/-- A read that a walk or a gate check needs joins the engine's requests, unless it is asked for or answered; a check of the
master that fails is its answer (R318, R330, R384). -/
def State.askTable (s : State) (e : EngineId) (sel : TokSel) (fa n : Nat) : State :=
  let g := s.eng e
  let use : FabUse := .table fa n
  let note (r : Resp) : State := s.modEng e fun g => { g with tables := g.tables ++ [(fa, n, r)] }
  let ask (t : Token) : State := s.modEng e fun g => { g with
    fabQ := g.fabQ ++ [({ write := false, addr := fa, len := n, strobe := fullStrobe n, data := 0, token := t.toNat, va := 0 }, use)] }
  if (answerTo g.tables fa n).isSome || g.fabQ.any (fun q => q.2 == use) || g.fabOut.any (fun f => f.use == use) then s
  else if s.isLocal fa then
    match s.masterCheck (s.engWho e) (fa % 2 ^ 31) n false with
    | some r => note r
    | none => ask 0
  else match s.outToken g.world sel fa n accWalk 0 with
    | .error x => note (if x.cause = 4 then .bus 0 else .cap 2)
    | .ok t => ask t

/-- The page of [va, va + 1) is walked for an access: the next entry is asked for, the leaf is kept, or the page is marked as one
whose access faults (R330, R333). -/
def State.walkPage (s : State) (e : EngineId) (va acc : Nat) : State :=
  let g := s.eng e
  match g.walkAsks va acc with
  | some fa => s.askTable e .cover fa 8
  | none => match (s.engXlat e va 1 acc g.sup).2 with
    | some t => s.modEng e fun g => { g.tlbFill t with tables := [] }
    | none => if g.needsWalk va then s.modEng e fun g => { g with walked := some (va / 4096) } else s

/-- An access whose page has not been walked. -/
def MemPart.unknown (p : MemPart) : Bool := p.spot == .walk && p.bad.isNone
/-- Walks go on for the accesses of an operation whose pages are unknown; those whose walk is complete are settled. -/
def settleParts : List MemPart → State → EngineId → Op → List MemPart × State
  | [], s, _, _ => ([], s)
  | p :: ps, s, e, o =>
    if p.unknown then
      let s := s.walkPage e p.va.toNat (accOf o.loads)
      let (ps, t) := settleParts ps s e o
      (p.settle (s.resolve e o.unit o.opcode p) :: ps, t)
    else
      let (ps, t) := settleParts ps s e o
      (p :: ps, t)

end Sys2Proof.Machine
end

