-- ==== Sys2Proof/Machine/EngOps.lean ====
section
/-!
DEFINITION. Machine/EngOps.lean: operations of the functional units: their start (R42 step 3, R98 to R132, R140 to R150), their
progress by schedule cycles (R49), their delivery (R37, R38, R101), and the ec of an engine (R48, R155, R218).
-/
namespace Sys2Proof.Machine

/-! ## System registers (Table 4-10) -/

/-- STAT; its IE mirrors EXC_CTL.IE. -/
def Engine.statWord (g : Engine) : Word :=
  at32 0 g.astat.toNat ||| at32 4 g.mode.val ||| at32 8 (b2n g.sup) ||| at32 9 (worldBit g.world) |||
    at32 10 (b2n (bitOf (g.ioGet 0x8C0) 0))

/-- ENGID. -/
def State.engId (s : State) (e : EngineId) : Word := at32 16 s.devId ||| at32 8 (engDie e).val ||| at32 0 e.val

/-- The value of a sys register; an unlisted number reads 0 (R130). -/
def State.sysRead (s : State) (e : EngineId) (n : Nat) : Word :=
  let g := s.eng e
  if 0x40 ≤ n ∧ n < 0x80 then latReg Config.stepping n
  else match n with
    | 0 => g.statWord
    | 1 => g.astat.setWidth 32
    | 2 => at32 0 g.cause
    | 3 => g.cdetail
    | 4 => g.faddr
    | 5 => g.ssp
    | 6 => g.sbase
    | 7 => g.slimit
    | 8 => at32 0 (fld (g.ioGet 0x8C0) 27 16)
    | 9 => g.slip
    | 10 => s.engId e
    | _ => 0
/-- Sys registers that only a supervisor reads (R131). -/
def sysSup (n : Nat) : Bool := within n 2 8

/-- A sys register written: 1 ASTAT clears flags, 5 SSP, 6 SBASE, 7 SLIMIT (R102, R132). -/
def Engine.sysPut (g : Engine) (n : Nat) (v : Word) : Engine :=
  match n with
  | 1 => { g with astat := g.astat &&& ~~~(v.setWidth 4) }
  | 5 => { g with ssp := v &&& 0x7FFFF#32 }
  | 6 => { g with sbase := v &&& 0x7FFFF#32 }
  | 7 => { g with slimit := v &&& 0x7FFFF#32 }
  | _ => g

/-! ## Kinds of operation -/

/-- Trap-enabled operations (R103). -/
def trapEnabled (u n : Nat) : Bool :=
  ((u == 3 || u == 4) && within n 6 8) || (u == 5 && n == 3) || (u == 6 && within n 3 4)
/-- Long whatever their addresses (R112, R126, R153). -/
def longOp (u n : Nat) : Bool :=
  u == 6 || u == 13 || (u == 11 && decide (59 ≤ n)) || (u == 10 && decide (16 ≤ n))
/-- Issue interval of a unit beyond 1 (R50, R112, R125, R148). -/
def issueInterval (u n : Nat) : Nat := if u = 6 then 34 else if u = 13 then 6 else if isSeq u n then 16 else 1

/-- Latency class of a fixed-latency operation (Table 7-1). -/
def opClass (u n : Nat) : Nat :=
  match u with
  | 3 | 4 => 0
  | 5 => 1
  | 6 => 2
  | 7 => if n = 8 then 4 else 3
  | 9 | 10 => memClass u n
  | 11 => (match vecOfCode n with | some o => (match o.cls with | .add => 10 | .mul => 11 | .red => 12) | none => 10)
  | 12 => 6
  | 13 => 7
  | 14 => 8
  | _ => 9

/-! ## Start -/

/-- An operation joins those in flight. -/
def Engine.push (g : Engine) (o : Op) : Engine := { g with inflight := g.inflight ++ [o], opId := g.opId + 1 }

/-- A fresh operation of unit u and opcode n. -/
def Engine.newOp (g : Engine) (pc : Word) (slot u n : Nat) (nt : Bool) : Op :=
  { id := g.opId, unit := u, opcode := n, slot := slot, pc := pc, age := 0, lat := g.classLat (opClass u n), act := .store,
    nt := nt, ecAt := g.ec, cyc := g.cycle, long := b2n (longOp u n), sup := g.sup,
    arg := if isMem u then ((g.unit u).a.setWidth 32 : Word).toNat else 0
    reg := if isStruct u n then fld (g.unit 10).b 3 0 else 0 }

/-- An operation whose result is known at its trigger: `alu`, `mul`, `div`, `bfu`, `vec` (R104 to R114, R140 to R143). -/
def Engine.compute (g : Engine) (o : Op) : Op :=
  let p := g.unit o.unit
  let a : Word := p.a.setWidth 32
  let b : Word := p.b.setWidth 32
  let c : Word := p.c.setWidth 32
  let n := o.opcode
  let trap (t : Bool) (k : Nat) : Option Nat := if t && !o.nt then some k else none
  match o.unit with
  | 3 | 4 =>
    match aluOfCode n with
    | some k => let r := aluEval k a b
                { o with act := .writeQ, q := r.1.setWidth 128, flags := r.2, trapAt := trap (k.traps && bitOf r.2 0) 1 }
    | none => o
  | 5 =>
    match mulOfCode n with
    | some k => let r := mulEval k a b c
                { o with act := .writeQ, q := r.1.setWidth 128, flags := r.2, trapAt := trap (k == .mult && bitOf r.2 0) o.lat }
    | none => o
  | 6 =>
    match divOfCode n with
    | some k => let r := divEval k a b
                { o with act := .writeQQ, q := r.1.setWidth 128, q1 := r.2.1.setWidth 128, flags := r.2.2,
                         trapAt := trap (divTraps k r.2.2) 1 }
    | none => o
  | 7 =>
    match bfuOfCode n with
    | some k => { o with act := .writeQ, q := (bfuEval k a b c).setWidth 128 }
    | none => o
  | 11 =>
    match vecOfCode n with
    | some k => let r := vecEval k p.a p.b p.c
                { o with act := .writeQ, q := r.1, flags := r.2 }
    | none => o
  | _ => o

/-- The fault of a `pio` access (R123, R374, Table 12-1): FADDR is the trigger value. -/
def pioFault (slot : Nat) (wr : Bool) (v : Word) (r : Resp) : OpFault :=
  let mk (c cd : Nat) : OpFault := { cause := c, faddr := v, cdetail := BitVec.ofNat 32 cd }
  match r with
  | .misaligned => mk 3 0
  | .level => mk 2 (slot * 2 ^ 8)
  | .world => mk 6 (12 + 16 * b2n wr)
  | .part => mk 6 (11 + 16 * b2n wr)
  | .owner c => mk 7 c
  | .cap c => mk 0x0D (c + 16 * b2n wr)
  | .bus k => mk 4 k
  | _ => mk 4 0

/-- Where a `pio` access goes: nowhere, the engine or its die, or another die (R122, R123). -/
inductive PioWay where
  | bad (r : Resp)
  | here (t : Target)
  | far (r : FabReq)
deriving DecidableEq, Repr
def State.pioWay (s : State) (e : EngineId) (wr : Bool) (v a : Word) : PioWay :=
  if v.toNat / 2 ^ 16 ≠ 0 then .bad (.bus 0)
  else match pioTarget e v.toNat with
  | none => .bad (.bus 0)
  | some t =>
    if pioLocal e t then .here t
    else match targetInfo t with
    | none => .bad (if targetCovers t then .misaligned else .bus 0)
    | some r => .far { write := wr, addr := s.devId * 2 ^ 31 + aliasAddr t, len := r.width, strobe := fullStrobe r.width,
                       data := if wr then a.toNat % 2 ^ (8 * r.width) else 0, token := 0, va := v, sup := (s.eng e).sup, pio := true }

/-- A `pio` operation starts; a local one is checked in the next cycle (R121 to R123). -/
def State.pioStart (s : State) (e : EngineId) (o : Op) : State :=
  let p := (s.eng e).unit 12
  let v : Word := p.b.setWidth 32
  let wr := o.opcode = 1
  match s.pioWay e wr v (p.a.setWidth 32) with
  | .bad r => s.modEng e (·.push { o with fault := some (1, pioFault o.slot wr v r) })
  | .here _ =>
    s.modEng e (·.push { o with act := if wr then .pioOut v.toNat (p.a.setWidth 32) else .pioIn v.toNat })
  | .far r =>
    s.modEng e fun g => { g.push { o with lat := 0, act := .rpio r, long := if wr then 1 else 2 } with
      fabQ := g.fabQ ++ [(r, .op o.id)] }

/-- An `ixu` operation starts (R124): bits [31:15] of its address must be 0. -/
def Engine.ixuStart (g : Engine) (o : Op) : Engine :=
  let p := g.unit 13
  let v : Word := p.a.setWidth 32
  if v.toNat / 2 ^ 15 ≠ 0 then g.push { o with fault := some (1, { cause := 4, faddr := v, cdetail := 0 }) }
  else g.push { o with act := if o.opcode = 1 then .ixuWr v.toNat (p.b.setWidth 32) else .ixuRd v.toNat }

/-- A `tim` operation starts (R127, R128, R225, R236). -/
def State.timStart (s : State) (e : EngineId) (o : Op) : State :=
  let p := (s.eng e).unit 14
  let t : Dword := BitVec.ofNat 64 ((p.a.setWidth 32 : Word).toNat * 2 ^ 32 + (p.b.setWidth 32 : Word).toNat)
  let now := s.engTim e
  s.modEng e fun g =>
    match o.opcode with
    | 0 => { g.push { o with act := .writeQ, q := (now.setWidth 32 : Word).setWidth 128 } with nowSample := now }
    | 1 => g.push { o with act := .writeQ, q := BitVec.ofNat 128 (fld g.nowSample 63 32) }
    | 2 => { g with waitTo := some t }
    | _ => g.push { o with act := .setl t }

/-- A `sys` operation starts (R130, R132). -/
def State.sysStart (s : State) (e : EngineId) (o : Op) : State :=
  let v : Word := ((s.eng e).unit 15).a.setWidth 32
  s.modEng e (·.push (if o.opcode = 0 then { o with act := .writeQ, q := (s.sysRead e (v.toNat % 256)).setWidth 128 }
    else { o with act := .sysWr (o.opcode - 16) v }))

/-! ## Memory operations -/

/-- Local addresses of accesses that resolved to the own scratchpad, an access without an active byte left out. -/
def ownSpots (ps : List MemPart) (rs : List (Except OpFault Spot)) : List (MemPart × Nat) :=
  (ps.zip rs).filterMap fun (p, r) => match r with | .ok (.own x) => some (p, x) | _ => none
/-- Requests of accesses that resolved to the fabric. -/
def fabSpots (rs : List (Except OpFault Spot)) : List FabReq :=
  rs.filterMap fun r => match r with | .ok (.fab q) => some q | _ => none

/-- Port uses of an operation on the own scratchpad: age and bank (Table 6-3); a split uses its hold ec instead. -/
def portUses (u n : Nat) (split : Bool) (banks : List Nat) : List (Nat × Nat) :=
  if split then [] else (List.range banks.length).map fun i => ((if isSeq u n then 3 + i else 1 + i), banks.getD i 0)

/-- An access to the own scratchpad that is split in two (R118, R175). -/
def Op.splits (o : Op) (n : Nat) : Bool := o.unit == 9 && n == 2
/-- A load, store or element sequence wholly on the own scratchpad starts (R117, R118, R144, R147, R149): its accesses are made each
in its port ec (Table 6-3). -/
def State.ownStart (s : State) (e : EngineId) (o : Op) (ps : List MemPart) (rs : List (Except OpFault Spot)) : State :=
  let banks := ownBanks rs
  let split := o.splits ps.length
  let hold := s.yieldHold e banks + (if split then 2 else 0)
  (s.startOwn e (ownSpots ps rs)).modEng e fun g =>
    { g.push { o with act := .seq o.loads (settled ps rs) [], uses := portUses o.unit o.opcode split banks } with
      holdDue := g.holdDue + hold
      haz := if split then { g.haz with lossDue := g.haz.lossDue ++ [9] } else g.haz }

/-- Age from which a variable-latency load delivers data that the caches gave it: as long as from the own scratchpad. -/
def readyAge (u : Nat) : Nat := if u = 9 then 3 else 4

/-- The registers and ports that a completed variable-latency operation writes, and its end (R51, R146). -/
def Engine.finish (g : Engine) (o : Op) (got : List Nat) : Engine :=
  let g := { g with inflight := g.inflight.filter fun x => x.id ≠ o.id }
  if !(memLoad o.unit o.opcode) then g
  else if isStruct o.unit o.opcode then
    let vals := structVals o.opcode got
    { g with
      vr := (List.range vals.length).foldl (fun r j => r.setIfInBounds ((o.reg + j) % 16) (vals.getD j 0)) g.vr
      vrDirect := g.vrDirect + vals.length }
  else { g.putResult o.unit 8 (loadValue o.unit o.opcode (BitVec.ofNat 32 o.arg) got) with
         haz := g.haz.receive o.unit 8, came := o.unit :: g.came }

/-- The service of operation `id` goes on, with k accesses on ports of the own scratchpad; where its accesses are complete it
delivers, at once where `now` says so. -/
def State.serve (s : State) (e : EngineId) (now : Bool) (k id : Nat) : State :=
  match (s.eng e).inflight.find? fun o => o.id == id with
  | some o =>
    match o.act with
    | .mem load ps got =>
      let put (s : State) (f : Op → Op) : State :=
        s.modEng e fun g => { g with inflight := updFirst (fun x => x.id == id) f g.inflight }
      let (ps, s) := settleParts ps s e o
      let early := if isSeq o.unit o.opcode then none else ps.findSome? (·.bad)
      if let some f := early then put s fun x => { x with act := .mem load ps got, fault := some (max 1 x.age, f) }
      else if !(isSeq o.unit o.opcode) && ps.any (·.unknown) then put s fun x => { x with act := .mem load ps got }
      else
      match serveParts k ps got s e o with
      | (.fault f, s) => put s fun x => { x with fault := some (max 1 x.age, f) }
      | (.more [] got, s) =>
        if now || !load || decide (readyAge o.unit ≤ o.age) then s.modEng e (·.finish o got)
        else put s fun x => { x with act := .ready got }
      | (.more ps got, s) => put s fun x => { x with act := .mem load ps got }
    | _ => s
  | none => s
/-- Every variable-latency access goes on as far as it can without a port of the own scratchpad, oldest first. -/
def State.serveAll (s : State) (e : EngineId) (now : Bool) : State :=
  forAll (((s.eng e).inflight.filter fun o => o.fault.isNone).map (·.id)) s fun id t => t.serve e now 0 id

/-- An `lsu` or `vlsu` operation starts (R116 to R120, R144 to R151, R177, R182). -/
def State.memStart (s : State) (e : EngineId) (o : Op) : State :=
  let g := s.eng e
  let u := o.unit
  let n := o.opcode
  let ps := memParts u n (g.unit u)
  let rs := ps.map (s.resolve e u n)
  let load := memLoad u n
  let fab := anyFab rs
  let far : Op := { o with lat := 0, long := 1, act := .mem load (settled ps rs) [] }
  if !load && s.buffers e rs then s.modEng e (·.sbEnter o.arg (memBytes u n) (fabSpots rs))
  else match if isSeq u n then none else firstFault rs with
  | some f => s.modEng e (·.push { o with lat := if fab then 0 else o.lat, fault := some (1, f) })
  | none =>
    if fab then
      ((s.startOwn e (ownSpots ps rs)).modEng e fun g =>
        { g.push far with holdDue := g.holdDue + s.yieldHold e (ownBanks rs) }).serve e false 0 o.id
    else s.ownStart e o ps rs

/-- An operation starts with its unit's operand ports as they stand (R42 step 3, R360). `cu` operations are not of this kind. -/
def State.startOp (s : State) (e : EngineId) (pc : Word) (slot u n : Nat) (nt : Bool) : State :=
  let g := s.eng e
  let o := g.newOp pc slot u n nt
  let s := if isSeq u n then s.modEng e fun g => { g with seqBusy := 16 } else s
  let s := if u = 10 ∨ u = 11 then s.modEng e fun g => { g with vtrig := true } else s
  if isMem u then s.memStart e o
  else if u = 12 then s.pioStart e o
  else if u = 13 then s.modEng e (·.ixuStart o)
  else if u = 14 then s.timStart e o
  else if u = 15 then s.sysStart e o
  else s.modEng e (·.push (g.compute o))

/-! ## Progress -/

/-- The last age of an operation in flight. -/
def Op.endAge (o : Op) : Nat :=
  match o.act with
  | .vstruct _ vals => if vals.length = 2 then o.lat else o.lat + 1
  | .seq _ _ _ => if isStruct o.unit o.opcode && structK o.opcode ≠ 2 then o.lat + 1 else o.lat
  | _ => o.lat

/-- A result reaches q, or q0 and q1, with its flags (R37, R38, R101). -/
def Engine.deliver (g : Engine) (o : Op) (q : Vec) (both : Bool) : Engine :=
  let h := (g.putResult o.unit 8 q)
  let h := { h with haz := g.haz.receive o.unit 8 }
  let h := if both then { h.putResult o.unit 9 o.q1 with haz := h.haz.receive o.unit 9 } else h
  { h with astat := h.astat ||| o.flags, arrived := o.unit :: h.arrived, readyAt := h.readyAt.setIfInBounds o.unit (o.ecAt + o.lat) }

/-- The operation leaves. -/
def Engine.drop (g : Engine) (id : Nat) : Engine := { g with inflight := g.inflight.filter fun o => o.id ≠ id }
/-- The operation changes. -/
def Engine.modOp (g : Engine) (id : Nat) (f : Op → Op) : Engine :=
  { g with inflight := updFirst (fun o => o.id == id) f g.inflight }

/-- The access of a local `pio` operation, at the level of its trigger. -/
def State.pioAccess (s : State) (e : EngineId) (o : Op) : Access := { accessOf s (.pio e) with sup := o.sup }
/-- A local `pio` access is checked in the cycle after its trigger (R123). -/
def State.pioCheck (s : State) (e : EngineId) (o : Op) (port : Nat) (wr : Bool) : State :=
  match pioTarget e port with
  | none => s
  | some t => match s.regCheck (s.pioAccess e o) t wr with
    | .error r => s.modEng e (·.modOp o.id fun x => { x with fault := some (x.age, pioFault o.slot wr (BitVec.ofNat 32 port) r) })
    | .ok _ => s
/-- The access of a local `pio` operation that was admitted in s + 1, without a second check (R122, R123; log 75). -/
def State.pioMake (s : State) (e : EngineId) (o : Op) (port : Nat) (out : Option Word) : Resp × State :=
  match (pioTarget e port).bind fun t => (targetInfo t).map fun r => (t, r) with
  | none => (.ok 0, s)
  | some (t, r) =>
    match out with
    | some w => s.regWriteOk (s.pioAccess e o) t r w (some (.engine e))
    | none => s.regReadOk (s.pioAccess e o) t r
/-- Its access is made, and the operation keeps what it will deliver; an `out` to ENG_ILDATA whose word cannot be merged fails
(R185). -/
def State.pioMade (s : State) (e : EngineId) (o : Op) (port : Nat) (out : Option Word) : State :=
  match s.pioMake e o port out with
  | (.ok x, s) => s.modEng e (·.modOp o.id fun y =>
      if out.isSome then { y with act := .store } else { y with act := .writeQ, q := BitVec.ofNat 128 x })
  | (.bus k, s) => s.modEng e (·.modOp o.id fun y =>
      { y with act := .store, fault := some (max 1 y.age, pioFault o.slot out.isSome (BitVec.ofNat 32 port) (.bus k)) })
  | (_, s) => s.modEng e (·.modOp o.id fun y => { y with act := .store })
/-- It completes. -/
def State.pioDone (s : State) (e : EngineId) (o : Op) (port : Nat) (out : Option Word) : State :=
  let s := s.pioMade e o port out
  match (s.eng e).inflight.find? fun x => x.id == o.id with
  | some x => if x.fault.isSome then s
    else s.modEng e fun g => if x.act == .writeQ then (g.drop o.id).deliver x x.q false else g.drop o.id
  | none => s
/-- A local `pio` operation at its present age. -/
def State.pioDue (s : State) (e : EngineId) (o : Op) (port : Nat) (out : Option Word) : State :=
  if o.age = 1 then s.pioCheck e o port out.isSome else if o.age = o.lat then s.pioDone e o port out else s

/-- An `ixu` access completes (R125, R126, R185). -/
def State.ixuDone (s : State) (e : EngineId) (o : Op) (k : Nat) (wr : Option Word) : State :=
  match eccAll (imemTouched e k) s wr.isSome with
  | (s, false) =>
    s.modEng e (·.modOp o.id fun x => { x with fault := some (x.age, { cause := 4, faddr := BitVec.ofNat 32 k, cdetail := 2 }) })
  | (s, true) =>
    s.modEng e fun g =>
      let h := g.drop o.id
      match wr with
      | none => h.deliver o ((g.imemGet k).setWidth 128) false
      | some w => ({ h.imemPut k w with iw := (0, k, g.imemGet k) :: h.iw } : Engine).btbClear

/-- An access of a store that cannot be merged into its word (R185). -/
def State.partFails (s : State) (e : EngineId) (p : MemPart) : Bool :=
  match p.spot with
  | .own x => (spadTouched e ((x - 0x10000000) % 0x40000) p.len p.strobe).any s.eccFails
  | _ => false
/-- What an operation on the own scratchpad does where k of its accesses may be made now. A store, but for a scatter, of which one
access fails makes that one alone, and writes nothing (R120, R185). -/
def State.ownServe (s : State) (e : EngineId) (o : Op) (k : Nat) (ps : List MemPart) (got : List Nat) : Served × State :=
  match if o.loads || isSeq o.unit o.opcode then none else ps.find? (s.partFails e) with
  | some p => serveParts 1 [p] [] s e o
  | none => serveParts k ps got s e o
/-- The operation after them: a structure load has the values of its registers (R147). -/
def Op.served (o : Op) (load : Bool) (ps : List MemPart) (got : List Nat) : OpAct :=
  if load && ps.isEmpty && isStruct o.unit o.opcode then .vstruct o.reg (structVals o.opcode got) else .seq load ps got
def State.seqStep (s : State) (e : EngineId) (o : Op) (k : Nat) (load : Bool) (ps : List MemPart) (got : List Nat) : State :=
  if ps.isEmpty then s
  else match s.ownServe e o k ps got with
  | (.fault f, s) => s.modEng e (·.modOp o.id fun x => { x with fault := some (max 1 x.age, f) })
  | (.more ps got, s) => s.modEng e (·.modOp o.id fun x => { x with act := o.served load ps got })
/-- The first fault that the checks of a sequence's elements have found by an age: element i is checked in cycle s + 3 + i
(R346). -/
def elementFault (age : Nat) (ps : List MemPart) : Option OpFault :=
  (ps.filter fun p => decide (3 + p.elem ≤ age)).findSome? (·.bad)

/-- The registers that a structure load writes at an age: v(n), v(n+1) first, the others one cycle later (R147); the bundle of that
cycle still reads what they held (R46). Where a move of that bundle writes the same register, R47 does not say which value stays:
the direct write is made first here, and the move's value stays (DESIGN CHOICE, log 81). -/
def Engine.structWrite (g : Engine) (o : Op) (n : Nat) (vals : List Vec) : Engine :=
  let js := if o.age = o.lat then [0, 1] else (List.range vals.length).drop 2
  { g with
    vr := js.foldl (fun r j => r.setIfInBounds ((n + j) % 16) (vals.getD j 0)) g.vr
    vrOld := g.vrOld ++ js.map fun j => ((n + j) % 16, g.vr.getD ((n + j) % 16) 0)
    vrDirect := g.vrDirect + js.length
    readyAt := g.readyAt.setIfInBounds 1 (o.ecAt + o.age) }

/-- What an operation does at its present age (R49). -/
def State.opDue (s : State) (e : EngineId) (o : Op) : State :=
  let last (f : Engine → Engine) : State := if o.age = o.lat then s.modEng e f else s
  match o.act with
  | .store => last (·.drop o.id)
  | .writeQ => last fun g => (g.drop o.id).deliver o o.q false
  | .writeQQ => last fun g => (g.drop o.id).deliver o o.q true
  | .pioIn p => s.pioDue e o p none
  | .pioOut p v => s.pioDue e o p (some v)
  | .ixuRd k => if o.age = o.lat then s.ixuDone e o k none else s
  | .ixuWr k v => if o.age = o.lat then s.ixuDone e o k (some v) else s
  | .sysWr n v => last fun g => (g.drop o.id).sysPut n v
  | .setl t => last fun g => { g.drop o.id with launch := t }
  | .vstruct n vals =>
    if o.age = o.lat ∨ o.age = o.endAge then
      s.modEng e fun g =>
        let h := g.structWrite o n vals
        if o.age = o.endAge then h.drop o.id else h
    else s
  | .seq load ps got =>
    let s := s.seqStep e o ps.length load ps got
    match (s.eng e).inflight.find? fun x => x.id == o.id with
    | some { act := .seq l [] got, fault := none, .. } =>
      if o.age = o.lat then
        s.modEng e fun g =>
          if l then (g.drop o.id).deliver o (loadValue o.unit o.opcode (BitVec.ofNat 32 o.arg) got) false else g.drop o.id
      else s
    | _ => s
  | .ready got => if readyAge o.unit ≤ o.age then s.modEng e (·.finish o got) else s
  | .mem _ ps _ =>
    match if isSeq o.unit o.opcode then elementFault o.age ps else none with
    | some f => s.modEng e (·.modOp o.id fun x => { x with fault := some (x.age, f) })
    | none => s.serve e false 1 o.id
  | .rpio _ => s

/-- A trap condition that becomes known at the operation's present age is owed (R367). -/
def Engine.oweTrap (g : Engine) (o : Op) : Engine :=
  if o.trapAt = some o.age then
    { g with owed := g.owed ++ [{ id := o.id, age := 0, dist := o.dist, pc := o.pc, unit := o.unit, opcode := o.opcode,
                                  slot := o.slot, flags := o.flags }] }
  else g

/-- One schedule cycle of operation `id`. -/
def State.opStep (s : State) (e : EngineId) (id : Nat) : State :=
  match (s.eng e).inflight.find? fun o => o.id == id with
  | none => s
  | some o =>
    let o := { o with age := o.age + 1 }
    let s := s.modEng e fun g => (g.modOp id fun _ => o).oweTrap o
    if o.fault.isSome then s else s.opDue e o

/-- The bank of the own scratchpad that the next access of a variable-latency operation asks for, once the operation is one ec
older. -/
def Op.nextOwn (o : Op) : List Nat :=
  match o.act with
  | .mem _ (p :: _) _ => (match p.spot with
    | .own x => if p.bad.isNone && decide (o.dueAt p ≤ o.age + 1) then [ownBank x] else []
    | _ => [])
  | _ => []
/-- Own bank ports that operations ask for as they go on, one entry for each use. -/
def bankUses (l : List Op) : List Nat :=
  l.flatMap fun o => if o.fault.isSome then [] else o.nextOwn ++ (o.uses.filter fun p => p.1 == o.age + 1).map (·.2)
/-- Uses that lose their port (R171, R172). -/
def losses (l : List Nat) : Nat := l.length - (distinct l).length

/-- Counters by schedule cycle. -/
def HazRec.age (h : HazRec) : HazRec :=
  let early := h.early.map fun p => (p.1, p.2.1 + 1, p.2.2 - 1)
  let due := (early.filter fun p => p.2.2 == 0).map (·.1)
  { h with seen := due.map (·, 0) ++ ((h.seen.map fun p => (p.1, p.2 + 1)).filter fun p => !(due.contains p.1))
           early := early.filter fun p => decide (0 < p.2.2) }
/-- Words written by `wrw` grow older by n; a bundle that issues was fetched 3 schedule cycles before, or 3 ec in a throughput
mode (R125). -/
def Engine.iwAge (g : Engine) (n : Nat) : Engine :=
  { g with iw := (g.iw.map fun p => (p.1 + n, p.2)).filter fun p => decide (p.1 ≤ 3) }
/-- n uses lose their port: each adds a hold ec (R172). -/
def Engine.lose (g : Engine) (n : Nat) : Engine :=
  if n = 0 then g
  else { g.ioPut 0x890 (bumpFld (g.ioGet 0x890) 7 0 n) with
         holdDue := g.holdDue + n, haz := { g.haz with lossDue := g.haz.lossDue ++ List.replicate n 10 } }
def Engine.cycleUp (g : Engine) : Engine :=
  let g := if throughput g.mode then g else g.iwAge 1
  { g with cycle := g.cycle + 1, seqBusy := g.seqBusy - 1, haz := g.haz.age, arrived := [], vrOld := []
           owed := g.owed.map fun o => { o with age := o.age + 1 } }

/-- The order in which operations act in one cycle: system writes (R102), then accesses of `pio`, before what the hardware sets
in the same cycle and before a write of an instruction word (R10, R11, R95), then the others. -/
def Op.turn (o : Op) : Nat :=
  match o.act with
  | .sysWr _ _ => 0
  | .pioIn _ | .pioOut _ _ => 1
  | _ => 2
/-- The next schedule cycle begins: every operation advances, oldest first within its turn (R49). -/
def State.advance (s : State) (e : EngineId) : State :=
  let n := losses (bankUses (s.eng e).inflight)
  let s := s.modEng e (·.cycleUp)
  let ops := (s.eng e).inflight
  let ids := ((ops.filter fun o => o.turn == 0) ++ (ops.filter fun o => o.turn == 1) ++ ops.filter fun o => o.turn == 2).map (·.id)
  (forAll ids s fun id t => t.opStep e id).modEng e (·.lose n)
/-- In an ec that takes more than one schedule cycle the accesses of `pio` that its m cycles bring are made before what the hardware
sets in it (R10, R11, R66, R95): those of the later cycles keep what they deliver there. -/
def State.pioAhead (s : State) (e : EngineId) (m : Nat) : State :=
  forAll (List.range m) s fun j t => forAll ((t.eng e).inflight.filter fun o => o.fault.isNone && o.age + (j + 1) == o.lat) t fun o t =>
    match o.act with
    | .pioIn p => t.pioMade e o p none
    | .pioOut p v => t.pioMade e o p (some v)
    | _ => t

/-! ## Engine cycles -/

/-- The vector unit counts the ec without a trigger of it and without an operation of it in flight; its power-down is due once the
count reaches 4,096 (R155). -/
def Engine.vecIdle (g : Engine) : Engine :=
  let busy := g.vtrig || g.inflight.any fun o => o.unit == 10 || o.unit == 11
  if !(throughput g.mode) || busy then { g with vtrig := false, vidle := 0, vdue := false }
  else { g with vtrig := false, vidle := g.vidle + 1, vdue := g.vdue || (g.vidle + 1 == 4096 && g.vpwr == .on) }
/-- What a variable-latency operation delivered and what was written directly in the present ec counts no longer (R37, R47), nor does
what port B wrote in it (R174). -/
def Engine.endEc (g : Engine) : Engine :=
  { g with came := [], vrDirect := 0, portB := g.portB.filter fun q => decide (g.ec < q.ec) }
/-- One ec passes: TIM_NOW of the engine moves by one of its edges (R225; log 76). -/
def Engine.passEc (g : Engine) : Engine :=
  ({ g.vecIdle.endEc with
     ec := g.ec + 1, ahead := g.ahead + 1, vwake := g.vwake - 1, throttle := g.throttle - 1, entryFrame := none } : Engine).lateDue

/-- One hold ec of an instruction fill from the own scratchpad: a word moves unless an operation uses the bank's port in it, once the
ec of a yield have passed (R170, R171, R197). -/
def Engine.fillWord (g : Engine) (used : List Nat) : Engine :=
  match g.ifill with
  | some (line, k, w) =>
    let b := (line * 64 % 2 ^ 31 - 0x10000000) % 0x40000 / 0x4000
    { g with ifill := some (if w ≠ 0 then (line, k, w - 1) else (line, if used.contains b then k else min 8 (k + 1), 0)) }
  | none => g

/-- One hold ec: variable-latency operations and those named go on (R49, R51), and a stall counts in SLIP (R218). -/
def State.holdEc (s : State) (e : EngineId) (stall : Bool) (adv : List Nat) : State :=
  let here := (s.eng e).arrived
  let ops := (s.eng e).inflight.filter fun o => o.variable || adv.contains o.id
  let used := bankUses ops
  let s := forAll (ops.map (·.id)) s fun id t => t.opStep e id
  let s := s.modEng e fun g =>
    { ((g.lose (losses used)).fillWord used).passEc with slip := if stall then g.slip + 1 else g.slip, arrived := here }
  s.ilFlush e fun _ => true

/-- The stall ec due before the next schedule cycle pass (R118, R172, R197). -/
def holdMany : Nat → State → EngineId → State
  | 0, s, _ => s
  | n + 1, s, e => holdMany n (s.holdEc e true []) e
/-- One half of a split access, in one of the two hold ec of the split (R118, R175). -/
def State.splitHalf (s : State) (e : EngineId) : State :=
  match (s.eng e).inflight.find? fun o => o.age == 0 && o.fault.isNone && lsuCrosses o.opcode (BitVec.ofNat 32 o.arg) &&
      (match o.act with | .seq _ (_ :: _) _ => o.unit == 9 | _ => false) with
  | some { act := .seq load ps got, id := id, .. } =>
    (match (s.eng e).inflight.find? fun o => o.id == id with
     | some o => s.seqStep e { o with age := 1 } 1 load ps got
     | none => s)
  | _ => s
/-- The hold ec due before the next schedule cycle: those of a split are the last of them. -/
def dueHolds : Nat → State → EngineId → State
  | 0, s, _ => s
  | n + 1, s, e => dueHolds n ((if n < 2 then s.splitHalf e else s).holdEc e true []) e
def State.passHolds (s : State) (e : EngineId) : State :=
  let n := (s.eng e).holdDue
  (dueHolds n (s.modEng e fun g => { g with holdDue := 0 }) e).modEng e fun g =>
    { g with haz := { g.haz with losses := g.haz.losses ++ g.haz.lossDue, lossDue := [] } }

/-- One schedule cycle passes after the last issue: a bubble, or the cycle in which the next bundle may issue (R48, R60). In a
throughput mode a bubble takes no ec (R66, R68). -/
def State.nextCycle (s : State) (e : EngineId) : State :=
  let s := (s.passHolds e).advance e
  s.modEng e fun g =>
    if g.bubbles = 0 then { g with cycleOpen := true }
    else
      let h := { g with bubbles := g.bubbles - 1 }
      if throughput g.mode then h else h.passEc

/-- Cycles pass: n of them. -/
def cyclesPass : Nat → State → EngineId → State
  | 0, s, _ => s
  | n + 1, s, e => cyclesPass n (s.nextCycle e) e
/-- The ec that pass before the one in which the next bundle may issue: stalls that are due, and in a deterministic mode the
bubbles. -/
def State.nearCycle (s : State) (e : EngineId) : State :=
  let g := s.eng e
  if g.cycleOpen then s
  else if throughput g.mode then s.passHolds e
  else (cyclesPass g.bubbles s e).passHolds e
/-- The schedule cycle in which the next bundle may issue, with the bubbles that a throughput mode passes in the same ec; `more`
further cycles will share that ec. What operations in flight do in a cycle, they do in its issue ec: this state is the present one
only once a bundle issues or an event is taken in it, and a hold ec leaves it aside (R48, R49). -/
def State.openCycle (s : State) (e : EngineId) (more : Nat := 0) : State :=
  if (s.eng e).cycleOpen then s
  else
    let n := (s.eng e).bubbles + 1
    cyclesPass n (if n + more = 1 then s else s.pioAhead e (n + more)) e

end Sys2Proof.Machine
end

