-- ==== Sys2Proof/Machine/EngHaz.lean ====
section
/-!
DEFINITION. Machine/EngHaz.lean: the hazard detector of MD6 and MD7 (R213 to R217, Table 7-5).
-/
namespace Sys2Proof.Machine

/-- A hazard: its kind, slot, unit and SHORT (R216). -/
structure Hazard where
  kind  : Nat
  slot  : Nat
  unit  : Nat
  short : Nat
deriving DecidableEq, Repr

/-- A move whose guard is true, with the value that it carries. -/
abbrev Live := Move × Vec

/-- Operand of a move that is a trigger: unit, opcode and slot. -/
def trigOf (m : Move) : Option (Nat × Nat) := m.op.map fun n => (m.dunit, n)
/-- Triggers of unit u among moves. -/
def trigsOf (ms : List Live) (u : Nat) : List (Move × Nat) :=
  ms.filterMap fun m => match m.1.op with | some n => if m.1.dunit = u then some (m.1, n) else none | none => none

/-! ## Early reads (R213) -/

/-- A fixed-latency operation that will deliver to result port p. -/
def Op.delivers (o : Op) (p : Nat) : Bool :=
  o.lat ≠ 0 && o.fault.isNone &&
    (match o.act with
     | .writeQ | .pioIn _ | .ixuRd _ => p == 8
     | .writeQQ => p == 8 || p == 9
     | .seq load _ _ => load && p == 8
     | _ => false)

/-- Cycles until each operation that makes a read of port p of unit u early is due. -/
def Engine.earlyDue (g : Engine) (u p : Nat) : List Nat :=
  let key := 16 * u + (p - 8)
  let fresh (age : Nat) : Bool := !(g.haz.seen.any fun x => x.1 == key && decide (x.2 < age))
  ((g.inflight.filter fun o => o.unit == u && o.delivers p && decide (0 < o.age) && decide (o.age < o.lat) && fresh o.age).map
    fun o => o.lat - o.age) ++
  ((g.haz.early.filter fun x => x.1 == key && fresh x.2.1).map fun x => x.2.2)
def least : List Nat → Nat
  | [] => 0
  | [a] => a
  | a :: l => min a (least l)

/-- Kind 1. -/
def Engine.hazEarly (g : Engine) (ms : List Live) : List Hazard :=
  ms.filterMap fun m =>
    match m.1.src with
    | .sock u p =>
      if 3 ≤ u ∧ (p = 8 ∨ p = 9) then
        (match g.earlyDue u p with
         | [] => none
         | l => some { kind := 1, slot := m.1.slot, unit := u, short := least l })
      else none
    | .imm _ => none

/-! ## Issue intervals (R50) -/

/-- Cycles until unit u accepts a trigger of opcode n. -/
def Engine.rateLeft (g : Engine) (u n : Nat) : Nat :=
  if isSeq u n then g.seqBusy
  else
    let iv := issueInterval u n
    if iv = 1 then 0
    else match (g.inflight.filter fun o => o.unit == u).getLast? with
      | some o => iv - o.age
      | none => 0

/-- Latency of an operation that will write q at a fixed time, with the moves ms made; 0 for any other. -/
def State.qLat (s : State) (e : EngineId) (ms : List Live) (u n : Nat) : Nat :=
  let g := s.eng e
  let o := g.compute (g.newOp g.pc 0 u n false)
  if o.act == .writeQ then o.lat
  else if isMem u && memLoad u n && !(isStruct u n) then
    (if anyFab ((memParts u n ((ms.foldl (fun h m => h.moveWrite m.1 m.2) g).unit u)).map (s.resolve e u n)) then 0 else o.lat)
  else if n = 0 ∧ (u = 12 ∨ u = 13 ∨ u = 15) ∨ n < 2 ∧ u = 14 then o.lat
  else 0
/-- Kind 2: inside the issue interval, or a second result of the unit due in one cycle (R38). -/
def State.hazRate (s : State) (e : EngineId) (ms : List Live) : List Hazard :=
  ms.filterMap fun m =>
    match trigOf m.1 with
    | some (u, n) =>
      if u = 8 then none
      else
        let g := s.eng e
        let left := g.rateLeft u n
        let lat := s.qLat e ms u n
        let meets := lat ≠ 0 && g.inflight.any fun x => x.unit == u && x.delivers 8 && x.lat == x.age + lat
        if left ≠ 0 then some { kind := 2, slot := m.1.slot, unit := u, short := left }
        else if meets then some { kind := 2, slot := m.1.slot, unit := u, short := 0 }
        else none
    | none => none

/-! ## The other kinds -/

/-- Kind 3: one for each loss or split. -/
def Engine.hazBank (g : Engine) : List Hazard := g.haz.losses.map fun u => { kind := 3, slot := 0, unit := u, short := 0 }
/-- Kind 4: a move to `cu.lc` in a repeated bundle. -/
def hazLc (b : Bundle) (ms : List Live) : List Hazard :=
  if b.repn = 0 then []
  else (ms.filter fun m => m.1.dunit == 8 && m.1.dport == 16).map fun m => { kind := 4, slot := m.1.slot, unit := 8, short := 0 }
/-- Kind 5: a move guarded by a predicate that the bundle writes. -/
def hazPred (b : Bundle) (ms : List Live) : List Hazard :=
  (b.moves.filter fun m => m.guard % 8 ≠ 0 && ms.any fun x => x.1.dunit == 2 && x.1.dport == m.guard % 8).map
    fun m => { kind := 5, slot := m.slot, unit := 2, short := 0 }

/-- The 64-bit words of the own scratchpad that an operation reaches with ports p. -/
def State.wordsReached (s : State) (e : EngineId) (u n : Nat) (p : UnitPorts) : List Nat :=
  (memParts u n p).flatMap fun x =>
    match s.resolve e u n x with
    | .ok (.own a) => ((List.range x.len).filter fun j => x.strobe.testBit j).map fun j => (a + j) / 8
    | _ => []
/-- Unit u's ports as a bundle leaves them for its operations (R42). -/
def Engine.portsAfter (g : Engine) (ms : List Live) (u : Nat) : UnitPorts :=
  (ms.foldl (fun h m => h.moveWrite m.1 m.2) g).unit u
/-- Kind 6: an `lsu` and a `vlsu` operation of one bundle, one storing and one loading, that reach one word. -/
def State.hazPair (s : State) (e : EngineId) (ms : List Live) : List Hazard :=
  match trigsOf ms 9, trigsOf ms 10 with
  | (m, n) :: _, (m', n') :: _ =>
    let g := s.eng e
    let hit := memLoad 9 n != memLoad 10 n' &&
      (s.wordsReached e 9 n (g.portsAfter ms 9)).any (s.wordsReached e 10 n' (g.portsAfter ms 10)).contains
    let late := if m.slot < m'.slot then m' else m
    if hit then [{ kind := 6, slot := late.slot, unit := late.dunit, short := 0 }] else []
  | _, _ => []

/-! ## Reports (R214, R215, R217) -/

/-- The detector is on for the bundle at issue. -/
def Engine.hazOn (g : Engine) : Bool := (g.mode == 6 || g.mode == 7) && !g.hazExempt
/-- The hazards of a bundle, lowest kind first, then lowest slot. -/
def State.hazards (s : State) (e : EngineId) (b : Bundle) (ms : List Live) : List Hazard :=
  let g := s.eng e
  if g.hazOn then g.hazEarly ms ++ s.hazRate e ms ++ g.hazBank ++ hazLc b ms ++ hazPred b ms ++ s.hazPair e ms else []
/-- HAZ_CTL.TRAPk. -/
def Engine.hazTraps (g : Engine) (k : Nat) : Bool := bitOf (g.ioGet 0x860) k
/-- CDETAIL of cause 0x0F (R216). -/
def Hazard.detail (h : Hazard) : Word := at32 16 (h.short % 256) ||| at32 8 h.unit ||| at32 4 h.slot ||| at32 0 h.kind
/-- A counted hazard is recorded. -/
def Engine.hazCount (g : Engine) (k : Nat) : Engine :=
  let v := bumpFld (g.ioGet 0x864) 31 16 1
  if fld v 3 0 = 0 then (g.ioPut 0x864 (setFld v 3 0 k)).ioPut 0x868 g.pc else g.ioPut 0x864 v
/-- The hazards of a bundle that issues: those counted only are recorded, an R50 hold of it among them. -/
def Engine.hazIssue (g : Engine) (hs : List Hazard) : Engine :=
  let held := if g.hazOn && !(g.hazTraps 2) then g.haz.rateHeld.map fun _ => 2 else []
  let ks := (hs.map (·.kind)).filter fun k => !(g.hazTraps k)
  let ks := (ks.filter (· < 2)) ++ held ++ ks.filter (2 ≤ ·)
  { ks.foldl Engine.hazCount g with haz := { g.haz with losses := [], rateHeld := [] } }

end Sys2Proof.Machine
end

