-- ==== Sys2Proof/Machine/EngTrap.lean ====
section
/-!
DEFINITION. Machine/EngTrap.lean: taking an exception, trap or interrupt, and the return from one (R344 to R370, R459).
-/
namespace Sys2Proof.Machine

/-! ## Events -/

/-- What an entry takes: cause, FADDR, CDETAIL and frame PC (Table 12-1), the handler of a gate call and the stack top that it
uses (R386), and the reason of a failed RTE check (Table 12-6). -/
structure Event where
  cause   : Nat
  faddr   : Word
  cdetail : Word
  pc      : Word
  target  : Option Nat := none
  stack   : Option Word := none
  rteBad  : Nat := 0
deriving DecidableEq, Repr

/-- The modes with precise traps. -/
def Engine.precise (g : Engine) : Bool := g.mode == 3 || g.mode == 5

/-! ## Exact boundaries (R349, R353) -/

/-- A long operation that an entry abandons: none whose first register write is made (R153). -/
def Op.abandons (o : Op) : Bool :=
  longOp o.unit o.opcode && !(match o.act with | .vstruct _ _ => decide (o.lat ≤ o.age) | _ => false)
/-- The operation delivers a result, flags or direct register writes. -/
def Op.outputs (o : Op) : Bool :=
  match o.act with
  | .writeQ | .writeQQ | .pioIn _ | .ixuRd _ | .vstruct _ _ => true
  | .seq load _ _ => load
  | _ => false
/-- The entry point is exact. -/
def Engine.exact (g : Engine) : Bool := g.inflight.all fun o => o.fault.isSome || o.variable || o.abandons || !o.outputs

/-! ## Arithmetic traps (R367 to R370) -/

/-- Traps whose condition becomes known by the end of a drain window. -/
def Engine.soonOwed (g : Engine) : List Owed :=
  g.inflight.filterMap fun o =>
    match o.trapAt with
    | some k =>
      if o.age < k ∧ k ≤ o.age + 4 then
        some { id := o.id, age := 0, dist := o.dist, pc := o.pc, unit := o.unit, opcode := o.opcode, slot := o.slot,
               flags := o.flags }
      else none
    | none => none
/-- The traps that are owed at an entry point (R368). -/
def Engine.trapsHere (g : Engine) : List Owed := g.owed ++ g.soonOwed
/-- The oldest of them. -/
def oldestOwed : List Owed → Option Owed
  | [] => none
  | t :: l => match oldestOwed l with
    | some u => if u.id < t.id then some u else some t
    | none => some t
/-- The entry for a trap. -/
def Engine.trapEvent (g : Engine) (t : Owed) : Event :=
  { cause := if g.precise then 0x0C else 0x0B
    faddr := at32 13 t.flags.toNat ||| at32 10 t.slot ||| at32 4 t.opcode ||| at32 0 t.unit
    cdetail := at32 31 (b2n (bitOf t.pc 31)) ||| at32 28 (if g.precise then 0 else min 6 t.dist) ||| at32 0 (fld t.pc 25 0)
    pc := g.pc }
/-- A trap that is due at the present entry point. -/
def Engine.trapDue (g : Engine) : Option Event :=
  let due (t : Owed) : Bool :=
    if g.precise then !(g.inflight.any fun o => o.id == t.id)
    else (decide (1 ≤ t.age) && g.exact) || decide (6 ≤ t.dist)
  if g.owed.any due then (oldestOwed g.trapsHere).map g.trapEvent else none

/-! ## Other events at an entry point -/

/-- The exception that RTE owes for a captured `in` with this status and slot (R459). -/
def Engine.capEvent (g : Engine) (st : Nat) : Event :=
  let mk (c cd : Nat) : Event :=
    { cause := c, faddr := (g.unit 12).b.setWidth 32, cdetail := BitVec.ofNat 32 cd, pc := g.pc }
  match st % 16 with
  | 1 => mk 0x0D 1
  | 5 => mk 6 12
  | 6 => mk 2 (st / 16 * 2 ^ 8)
  | _ => mk 4 1
/-- The oldest operation whose fault is found, if it is older than number n (R346). -/
def Engine.faultBelow (g : Engine) (n : Nat) : Option Event :=
  (g.inflight.find? fun o => decide (o.id < n) && o.fault.any fun f => decide (f.1 ≤ o.age)).bind fun o =>
    o.fault.map fun f => { cause := f.2.cause, faddr := f.2.faddr, cdetail := f.2.cdetail, pc := g.pc }
/-- An operation exception: that of the oldest operation, one that RTE owes among them (R348, R459). -/
def Engine.opEvent (g : Engine) : Option Event :=
  match g.capErr with
  | some (id, st) => (g.faultBelow id).or (some (g.capEvent st))
  | none => g.faultBelow g.opId
/-- The entry for event v is that of the captured `in`. -/
def Engine.capTaken (g : Engine) (v : Event) : Bool :=
  g.capErr.any fun c => (g.faultBelow c.1).isNone && v == g.capEvent c.2

/-- The lowest interrupt line that is pending and enabled (R371, R372). -/
def Engine.lineUp (g : Engine) : Option Nat :=
  (lowestBit (g.ioGet 0x8CC &&& g.ioGet 0x8C4) 32).or ((lowestBit (g.pend1 &&& g.ioGet 0x8C8) 32).map (32 + ·))
/-- The interrupt that is taken at the present entry point. -/
def Engine.intEvent (g : Engine) : Option Event :=
  if g.exact && g.ie && g.running then
    g.lineUp.map fun n => { cause := 0x80 + n, faddr := 0, cdetail := 0, pc := g.pc }
  else none

/-! ## The drain window (Table 12-3) -/

/-- Operations that complete in the drain window. -/
def Engine.drainIds (g : Engine) : List Nat :=
  (g.inflight.filter fun o => o.fault.isNone && !o.variable && !o.abandons).map (·.id)
/-- The ec of an entry in which an operation of the vector unit is in flight: until it completes, or the first where it is abandoned
(R155, R353). -/
def Engine.vecBusy (g : Engine) (ids : List Nat) : Nat :=
  (g.inflight.filter fun o => o.unit == 10 || o.unit == 11).foldl
    (fun n o => max n (if ids.contains o.id then o.endAge - o.age else 1)) 0
/-- They advance in real ec until each has delivered. -/
def drain : Nat → State → EngineId → List Nat → State
  | 0, s, _, _ => s
  | n + 1, s, e, ids => drain n (forAll ids s fun id t => t.opStep e id) e ids
/-- The results that the window delivers early count in their due cycles (R213). -/
def Engine.earlyOf (g : Engine) (ids : List Nat) : List (Nat × Nat × Nat) :=
  (g.inflight.filter fun o => ids.contains o.id && decide (o.age < o.lat)).flatMap fun o =>
    ([8, 9].filter o.delivers).map fun p => (16 * o.unit + (p - 8), o.age, o.lat - o.age)

/-! ## Pending words (R353, R359) -/

/-- A pending word. -/
def Op.pendWord (o : Op) (kind status rem : Nat) : Word :=
  at32 31 1 ||| at32 30 (b2n o.nt) ||| at32 28 kind ||| at32 24 o.unit ||| at32 18 o.opcode ||| at32 14 status |||
    at32 6 o.slot ||| at32 0 rem
/-- The first request of the operation has been granted and has not been answered. -/
def Engine.granted (g : Engine) (id : Nat) : Bool := g.fabOut.any fun f => f.use == .op id
/-- The operation writes memory or a register. -/
def Op.isWrite (o : Op) : Bool :=
  match o.act with
  | .mem load _ _ => !load
  | .rpio r => r.write
  | _ => false
/-- The request in progress is the operation's last. -/
def Op.lastPart (o : Op) : Bool :=
  match o.act with
  | .mem _ ps _ => decide (ps.length ≤ 1)
  | _ => true
/-- A granted remote `in` (R356). -/
def Engine.captures (g : Engine) (o : Op) : Bool :=
  g.granted o.id && (match o.act with | .rpio r => !r.write | _ => false) && o.fault.isNone
/-- The pending words of an operation that has not completed. -/
def Engine.pendOf (g : Engine) (o : Op) : List Word :=
  let fixed := [o.pendWord 0 0 (min 34 (o.lat - o.age))]
  if o.fault.isSome then (if o.lat = 0 then [o.pendWord 1 0 0] else fixed)
  else if !o.variable then fixed
  else if g.captures o then [o.pendWord 2 0 0, 0]
  else if g.granted o.id && o.isWrite && o.lastPart then []
  else [o.pendWord 1 0 0]
/-- The words of an earlier capture whose error lost to another event (R348). -/
def capWords (st : Nat) : List Word := [at32 31 1 ||| at32 28 2 ||| at32 24 12 ||| at32 14 (st % 16) ||| at32 6 (st / 16), 0]
/-- Pending words of the operations with numbers below n, in trigger order; those of an error that has lost among them. -/
def Engine.pendBelow (g : Engine) (taken : Bool) (n : Nat) : List Word :=
  let from_ (a b : Nat) : List Word := (g.inflight.filter fun o => decide (a ≤ o.id) && decide (o.id < b)).flatMap g.pendOf
  match g.capErr with
  | some (c, st) => if taken || decide (n ≤ c) then from_ 0 n else from_ 0 c ++ capWords st ++ from_ c n
  | none => from_ 0 n
/-- Words 8 to 13 of the frame. -/
def Engine.pendWords (g : Engine) (taken : Bool) : List Word := g.pendBelow taken g.opId
/-- The place among the pending words of a capture's kind-2 word. -/
def Engine.captureAt (g : Engine) (taken : Bool) : Option Nat :=
  (g.inflight.find? g.captures).map fun o => (g.pendBelow taken o.id).length

/-! ## The stack and the frame (R352, R358, R365) -/

/-- The first bad point of SSP at an entry (Table 12-6). -/
def State.stackBad (s : State) (e : EngineId) (ssp : Nat) : Option Nat :=
  let g := s.eng e
  let bank := (ssp - 64) / 0x4000
  if ssp % 64 ≠ 0 then some 1
  else if ssp < g.slimit.toNat + 64 then some 2
  else if g.sbase.toNat < ssp then some 3
  else if 2 ≤ bank ∧ (16 ≤ bank ∨ g.owner bank ≠ 0) then some 4
  else none
/-- The lowest free emergency slot. -/
def Engine.emfFree (g : Engine) : Option Nat := (List.range 4).find? fun k => !(bitOf (g.ioGet 0x8D8) k)
/-- A frame in emergency slot k. -/
def Engine.emfPut (g : Engine) (k : Nat) (ws : List Word) : Engine :=
  let g := g.ioPut 0x8D8 (setBit (g.ioGet 0x8D8) k true)
  (List.range 16).foldl (fun h w => h.ioPut (0x900 + 0x40 * k + 4 * w) (ws.getD w 0)) g
/-- Words as memory bytes. -/
def wordsNat (ws : List Word) : Nat := leNat (ws.flatMap fun w => leBytes 4 w.toNat)
/-- The frame written at an offset of the own scratchpad, with the answer of the bank port. -/
def State.framePut (s : State) (e : EngineId) (off : Nat) (ws : List Word) : Resp × State :=
  s.spadAccess e (.eng e) (ownAddr e off) 64 true (fullStrobe 64) (wordsNat ws)

/-- STAT of the frame (R358): iterations left, WAITH, EARLY and ATLOST beside the status before the entry. -/
def State.frameStat (s : State) (e : EngineId) (next exact lost : Bool) : Word :=
  let g := s.eng e
  let left := match g.repLeft with | some n => n | none => g.repResume
  let held := g.waitTo.any fun t => !(timeReached t (s.engTim e))
  g.statWord ||| at32 16 (if next then 0 else left % 64) ||| at32 13 (b2n lost) ||| at32 12 (b2n (!exact)) |||
    at32 11 (b2n (!next && held))

/-! ## Entry (R351 to R357) -/

/-- Ec that pass. -/
def passEcs : Nat → Engine → Engine
  | 0, g => g
  | n + 1, g => passEcs n g.passEc

/-- The idle count of the vector unit after the 14 ec of an entry of which an operation of the unit was in flight in the first
`busy` (R155). -/
def Engine.idleFrom (g : Engine) (busy : Nat) : Engine :=
  if busy = 0 ∨ throughput g.mode = false then g else { g with vidle := 14 - min 14 busy, vdue := false }
/-- The state of the engine as the handler begins (R357, R362), and its program's control state set aside. -/
def Engine.enterState (g : Engine) (pc : Nat) (saved : HazRec) (busy : Nat) : Engine :=
  Engine.idleFrom (passEcs 14 (({ g with
    outerSup := if g.depth = 0 then g.sup else g.outerSup, depth := g.depth + 1, sup := true,
    pc := BitVec.ofNat 32 pc, repLeft := none, repResume := 0, waitTo := none, launchWait := false, iw := [],
    fetchErr := none, walked := none, tables := [], ifill := none, owed := [], capErr := none, returning := none,
    inflight := [], bubbles := 0, cycleOpen := true,
    arrived := [], came := [], vrOld := [], vrDirect := 0, vtrig := false, holdDue := 0, seqBusy := 0, hazSaved := saved :: g.hazSaved, haz := {},
    fabQ := g.fabQ.filter fun q => q.2.stays } : Engine).setIe false)) busy

/-- The outstanding transaction of an operation or a data fill no longer serves one, and a write is made in full (R329); a captured
`in` does (R356). -/
def Engine.abandonOut (g : Engine) (cap : Option Nat) : Engine :=
  { g with fabOut := g.fabOut.map fun f =>
      match f.use with
      | .op _ => { f with use := match cap with | some off => .capture off | none => if f.req.write then .rest else .discard }
      | .fill _ _ | .table _ _ => { f with use := .discard }
      | _ => f }

/-- CAUSE and CDETAIL as the entry leaves them (R365): `r` and `k` are the reason and slot of an invalid SSP. -/
def Event.codes (v : Event) (bad : Option (Nat × Nat)) : Nat × Word :=
  let orig := if v.rteBad ≠ 0 then 0 else v.cause
  match bad with
  | some (r, k) => (9, at32 12 k ||| at32 8 r ||| at32 0 orig)
  | none => if v.rteBad ≠ 0 then (9, at32 8 v.rteBad) else (v.cause, v.cdetail)

/-- The operations of traps that are taken or discarded raise no trap when they are triggered again (R370). -/
def Engine.markNt (g : Engine) (ts : List Owed) : Engine :=
  let mark (o : Op) : Op := if ts.any (fun t => t.id == o.id) then { o with nt := true, trapAt := none } else o
  { g with inflight := g.inflight.map mark }
/-- What an entry writes: its event, the frame's words by CAUSE and CDETAIL, the place of a captured `in` among them, the handler
the record of hazards of the interrupted program, and the ec of the entry in which the vector unit is busy. -/
structure Entry where
  v       : Event
  frame   : Nat × Word → List Word
  cap     : Option Nat
  handler : Nat
  saved   : HazRec
  busy    : Nat
/-- CAUSE, CDETAIL and FADDR are written (ec 4). -/
def State.putCodes (s : State) (e : EngineId) (v : Event) (codes : Nat × Word) : State :=
  s.modEng e fun g => { g with cause := codes.1, cdetail := codes.2, faddr := v.faddr }
/-- The handler begins, with the frame at an offset (2^20 + port for a slot), on which EXC_CTL writes act until the entry has
passed (R357). -/
def Engine.begins (g : Engine) (x : Entry) (base : Nat) : Engine :=
  { (g.abandonOut (x.cap.map fun i => base + 4 * i)).enterState x.handler x.saved x.busy with entryFrame := some base }
/-- An entry without a stack frame: the frame goes to the lowest free emergency slot with reason r, or, with none, the engine
enters MD11 (R365, R366). -/
def State.enterSlot (s : State) (e : EngineId) (x : Entry) (r : Nat) : State :=
  match (s.eng e).emfFree with
  | some k =>
    let codes := x.v.codes (some (r, k))
    (s.putCodes e x.v codes).modEng e fun g => (g.emfPut k (x.frame codes)).begins x (2 ^ 20 + 0x900 + 0x40 * k)
  | none =>
    let t := (s.putCodes e x.v (x.v.codes (some (r, 0)))).modEng e fun g => (g.enterState x.handler x.saved x.busy).quarantine 1
    t.faultMsi s
/-- An entry whose stack top is `ssp`: on the stack, or in a slot where a check or the write of the frame fails (R352, R365). -/
def State.enterFrame (s : State) (e : EngineId) (x : Entry) (ssp : Nat) : State :=
  match s.stackBad e ssp with
  | some r => s.enterSlot e x r
  | none =>
    let codes := x.v.codes none
    match (s.putCodes e x.v codes).framePut e (ssp - 64) (x.frame codes) with
    | (.ok _, s) => s.modEng e fun g => { g.begins x (ssp - 64) with ssp := BitVec.ofNat 32 (ssp - 64) }
    | (_, s) => s.enterSlot e x 5

/-- An entry is taken. An owed trap takes it before any other event; one that would have come from a return is raised again when
its bundle, which the frame names, runs again (R368, log 43). -/
def State.enter (s : State) (e : EngineId) (v : Event) : State :=
  let g0 := s.eng e
  let traps := g0.trapsHere
  let exact := g0.exact
  let trap := oldestOwed traps
  let taken := trap.isNone && g0.capTaken v
  let v := match trap with | some t => g0.trapEvent t | none => v
  let lost := decide (1 < traps.length)
  let next := v.pc != g0.pc
  let s := s.modEng e (·.markNt traps)
  let ids := (s.eng e).drainIds
  let busy := (s.eng e).vecBusy ids
  let saved := { g0.haz with early := g0.haz.early ++ (s.eng e).earlyOf ids }
  let s := drain 24 s e ids
  let ssp := (v.stack.getD (s.eng e).ssp).toNat
  let s := if 64 ≤ ssp then s.yieldBank e ((ssp - 64) / 0x4000) else s
  let g := s.eng e
  let pend := g.pendWords taken
  let stat := s.frameStat e next exact lost
  let frame (codes : Nat × Word) : List Word :=
    [v.pc, stat, at32 0 codes.1, codes.2, v.faddr, g.lc, g.ssp, 0] ++
      (List.range 6).map (fun i => pend.getD i 0) ++ [0, 0]
  s.enterFrame e { v := v, frame := frame, cap := (g.captureAt taken).map (· + 8), saved := saved, busy := busy
                   handler := v.target.getD (fld (g.ioGet 0x8C0) 27 16) } ssp

/-! ## Return (R360 to R363, R459) -/

/-- The first bad point of SSP at an RTE. -/
def Engine.rteBad (g : Engine) : Option Nat :=
  if g.ssp.toNat % 64 ≠ 0 then some 1
  else if g.ssp.toNat < g.slimit.toNat then some 2
  else if g.sbase.toNat < g.ssp.toNat + 64 then some 3
  else none
/-- A frame that the return refuses (R361). -/
def Engine.rteRefused (g : Engine) (stat : Word) : Bool :=
  fld stat 9 9 ≠ worldBit g.world || (bitOf stat 8 && (g.depth == 0 || (g.depth == 1 && !g.outerSup)))

/-- The valid pending words in frame order, a kind-2 word with its value. -/
def pendList : List Word → List (Word × Word)
  | [] => []
  | [w] => if bitOf w 31 then [(w, 0)] else []
  | w :: v :: l =>
    let mine := if bitOf w 31 && fld w 29 28 ≠ 3 then [(w, v)] else []
    if fld w 29 28 = 2 then mine ++ pendList l else mine ++ pendList (v :: l)

/-- The operation with number `id` goes through n schedule cycles. -/
def runOp : Nat → State → EngineId → Nat → State
  | 0, s, _, _ => s
  | n + 1, s, e, id => runOp n (s.opStep e id) e id
/-- Schedule cycles for which a re-triggered operation advances before the return bundle: until REM remain, or to its end. -/
def State.resumeBy (s : State) (e : EngineId) (id kind rem : Nat) : Nat :=
  match (s.eng e).inflight.find? fun o => o.id == id with
  | some o => if kind = 0 ∧ o.lat ≠ 0 then o.lat - rem else if o.fault.isSome then 1 else if o.lat = 0 then 0 else o.endAge
  | none => 0
/-- One pending word is carried out; the answer is the ec that its operation takes to reach its remaining latency. An operation of
the vector unit starts at once even where the unit sleeps or wakes: R156 and R360 name only bundles that trigger (DESIGN CHOICE,
log 101). -/
def State.resume (s : State) (e : EngineId) (pc w v : Word) : Nat × State :=
  let u := fld w 27 24
  let n := fld w 23 18
  let kind := fld w 29 28
  if kind = 2 then
    (0, s.modEng e fun g =>
      if fld w 17 14 = 0 then { g.putResult 12 8 (v.setWidth 128) with haz := g.haz.receive 12 8 }
      else { g with opId := g.opId + 1, capErr := some (g.opId, fld w 17 14 + 16 * fld w 8 6) })
  else if 3 ≤ u ∧ u ≠ 8 ∧ knownOp u n then
    let g := s.eng e
    let id := g.opId
    let s := (s.modEng e fun g => { g with cycle := g.cycle + 1 }).startOp e (pc - 1#32) (fld w 8 6) u n (bitOf w 30)
    let k := s.resumeBy e id kind (fld w 5 0)
    let s := runOp k s e id
    (k, s.modEng e fun h => { h with holdDue := g.holdDue, haz := { h.haz with lossDue := g.haz.lossDue }
                                     seqBusy := if isSeq u n then 16 - k else h.seqBusy })
  else (0, s)
/-- The pending words in turn, one an ec from ec `t` on; the answer is the ec of the return bundle (R360). -/
def resumeAll : List (Word × Word) → State → EngineId → Word → Nat → Nat → Nat × State
  | [], s, _, _, _, x => (x, s)
  | (w, v) :: l, s, e, pc, t, x =>
    let (k, s) := s.resume e pc w v
    resumeAll l s e pc (t + 1) (max x (max (t + 1) (t + k)))

/-- The 16 words that n bytes hold. -/
def natWords (v : Nat) : List Word := (List.range 16).map fun i => BitVec.ofNat 32 (v / 2 ^ (32 * i))

/-- What is in flight or owed belongs to the code that is left (R368). -/
def Engine.leaveOps (g : Engine) : Engine :=
  { g with inflight := g.inflight.map fun o => { o with away := true }, owed := g.owed.map fun o => { o with away := true } }
/-- The engine's state of the frame at an offset is restored, and the return goes on (R360). Whether a `waitu` in the bundle with
`rte` holds the return bundle the manual does not say: only the frame's WAITH does (DESIGN CHOICE, log 100). -/
def Engine.restore (g : Engine) (off : Nat) (ws : List Word) : Engine :=
  let stat := ws.getD 1 0
  ({ g.leaveOps with
     astat := BitVec.ofNat 4 (fld stat 3 0), sup := bitOf stat 8, lc := ws.getD 5 0, ssp := ws.getD 6 0 &&& 0x7FFFF#32,
     depth := g.depth - 1, pc := ws.getD 0 0, repLeft := none, repResume := fld stat 21 16, returning := some off,
     haz := g.hazSaved.headD {}, hazSaved := g.hazSaved.tail, hazExempt := fld (ws.getD 2 0) 7 0 == 0x0F,
     launchWait := false, iw := [], fetchErr := none, walked := none, tables := [], ifill := none, waitTo := none,
     arrived := [], vrOld := [], bubbles := 0, cycleOpen := true } : Engine).setIe (bitOf stat 10)
/-- The return goes on once no captured `in` is awaited: pending words from ec 9 on, and the bundle at word 0 in ec x (R360). A
hold for a captured `in` is a wait. -/
def State.returnOn (s : State) (e : EngineId) : State :=
  match (s.eng e).returning with
  | none => s
  | some off =>
    if (s.eng e).capWait then s.holdEc e false []
    else
      let ws := natWords (memNat s.mem (ownAddr e off) 64)
      let (x, s) := resumeAll (pendList ((ws.drop 8).take 6)) s e (ws.getD 0 0) 9 12
      s.modEng e fun g =>
        let p := g.unit 14
        let t : Dword := BitVec.ofNat 64 ((p.a.setWidth 32 : Word).toNat * 2 ^ 32 + (p.b.setWidth 32 : Word).toNat)
        let back (o : Op) : Op := { o with ecAt := g.ec + (x - 9) - o.age }
        passEcs (x - 9) { g with waitTo := if bitOf (ws.getD 1 0) 11 then some t else none, returning := none
                                 readyAt := .replicate 16 0, inflight := g.inflight.map back, arrived := [], vrOld := [] }
/-- A return, after the bundle with `rte` has issued and its ec has passed. -/
def State.rte (s : State) (e : EngineId) : State :=
  let pc1 := (s.eng e).pc + 1#32
  let s := (s.passHolds e).advance e
  let g := s.eng e
  match g.rteBad with
  | some r => s.enter e { cause := 9, faddr := g.faddr, cdetail := 0, pc := pc1, rteBad := r }
  | none =>
    let off := g.ssp.toNat
    let s := holdMany (s.yieldHold e (banksOf (ownAddr e off) 64)) s e
    match s.spadAccess e (.eng e) (ownAddr e off) 64 false (fullStrobe 64) 0 with
    | (.ok v, s) =>
      let ws := natWords v
      if g.rteRefused (ws.getD 1 0) then
        (s.modEng e (passEcs 2)).enter e { cause := 0x0A, faddr := g.ssp, cdetail := ws.getD 1 0, pc := pc1 }
      else (s.modEng e fun g => passEcs 8 (g.restore off ws)).returnOn e
    | (.owner c, s) => s.enter e { cause := 7, faddr := g.ssp, cdetail := BitVec.ofNat 32 c, pc := pc1 }
    | (_, s) => s.enter e { cause := 4, faddr := g.ssp, cdetail := 2, pc := pc1 }

end Sys2Proof.Machine
end

