-- ==== Sys2Proof/Machine/EngGate.lean ====
section
/-!
DEFINITION. Machine/EngGate.lean: gate calls: the descriptor, the checks of its arguments, their hold, and the call or its
refusal (R384 to R387, Tables 13-3 and 13-4).
-/
namespace Sys2Proof.Machine

/-- Why a gate check does not pass: REASON of R387, or a read that has still to be made over the fabric. -/
inductive GateStop where
  | fail (reason : Nat)
  | ask (sel : TokSel) (fa n : Nat)
deriving DecidableEq, Repr
/-- The same with the argument that it concerns (0 for the descriptor). -/
abbrev GateBad := Nat × GateStop

/-- GT_BASE and GT_CNT of a world. -/
def State.gateBase (s : State) (w : World) : Word := s.n0 (match w with | .T => 0x7660 | .H => 0x7668)
def State.gateCount (s : State) (w : World) : Nat := fld (s.n0 (match w with | .T => 0x7664 | .H => 0x766C)) 8 0

/-- n bytes of the engine's own scratchpad at an offset; reason 12 where they cannot be read. -/
def State.ownRead (s : State) (e : EngineId) (off n : Nat) : Except GateStop Nat × State :=
  if 0x40000 < off + n then (.error (.fail 12), s)
  else match s.spadAccess e (.eng e) (ownAddr e off) n false (fullStrobe n) 0 with
    | (.ok v, s) => (.ok v, s)
    | (_, s) => (.error (.fail 12), s)
/-- n bytes at a fabric address, read over the fabric. -/
def Engine.farRead (g : Engine) (sel : TokSel) (fa n : Nat) : Except GateStop Nat :=
  match answerTo g.tables fa n with
  | some (.ok v) => .ok v
  | some _ => .error (.fail 12)
  | none => .error (.ask sel fa n)
/-- The offset of an OWN table's descriptor n. -/
def gateOfs (b : Word) (n : Nat) : Nat := fld b 17 4 * 16 + 16 * n
/-- Descriptor n of the engine's world (R384). -/
def State.gateRead (s : State) (e : EngineId) (n : Nat) : Except GateStop (List Word) × State :=
  let b := s.gateBase (s.world e)
  let (v, s) : Except GateStop Nat × State :=
    if bitOf b 31 then s.ownRead e (gateOfs b n) 16
    else ((s.eng e).farRead .cover (s.devId * 2 ^ 31 + fld b 30 4 * 16 + 16 * n) 16, s)
  (v.map fun v => (natWords v).take 4, s)

/-- CLASSk of a descriptor. -/
def gateClass (d : List Word) (k : Nat) : Nat := fld (d.getD 2 0) (4 * k - 1) (4 * k - 4)
/-- A reserved field or class of a descriptor: the argument that reports it (reason 4). -/
def gateReserved (d : List Word) : Option Nat :=
  let w (i : Nat) : Word := d.getD i 0
  let ptr (k : Nat) : Bool := within (gateClass d k) 1 3
  if fld (w 0) 15 12 ≠ 0 ∨ fld (w 0) 31 18 ≠ 0 ∨ fld (w 1) 30 19 ≠ 0 ∨ fld (w 2) 31 16 ≠ 0 ∨ fld (w 3) 31 16 ≠ 0 then some 0
  else [1, 2, 3, 4].find? fun k =>
    decide (4 < gateClass d k) || (ptr k && (k == 4 || gateClass d (k + 1) != 0))

/-- The pieces of [a, a + n): whole for a Trigger-world engine, by page for a Host-service one. -/
def State.pieces (s : State) (e : EngineId) (a n : Nat) : List (Nat × Nat) :=
  match s.world e with
  | .T => if n = 0 then [] else [(a, n)]
  | .H =>
    if n = 0 then []
    else (List.range ((a + n - 1) / 4096 + 1 - a / 4096)).map fun i =>
      let lo := max a ((a / 4096 + i) * 4096)
      (lo, min (a + n) ((a / 4096 + i + 1) * 4096) - lo)
/-- REASON of a failed translation of a piece: rights or partition, else a range or a page. -/
def gateFault (x : XFault) : Nat :=
  if x.cause = 6 ∧ (within (x.cdetail % 16) 4 7 ∨ within (x.cdetail % 16) 10 12) then 6 else 5
/-- The partition admits every access to [x, x + n): each 4 KiB part of it (R378). -/
def State.rangeAdmitted (s : State) (a : Access) (x n : Nat) (wr : Bool) : Bool :=
  n == 0 || (List.range ((x + n - 1) / 4096 + 1 - x / 4096)).all fun i =>
    let lo := max x ((x / 4096 + i) * 4096)
    s.partOk a lo (min (x + n) ((x / 4096 + i + 1) * 4096) - lo) wr
/-- One piece translated and admitted for an access: why not, or its fabric address and token. -/
def State.pieceOk (s : State) (e : EngineId) (acc a n : Nat) : Except GateStop (Nat × TokSel) :=
  if 2 ^ 32 < a + n then .error (.fail 5)
  else match (s.eng e).walkAsks a acc with
  | some fa => .error (.ask .cover fa 8)
  | none => match (s.engXlat e a n acc (s.eng e).sup).1 with
    | .error x => .error (.fail (gateFault x))
    | .ok (fa, sel) =>
      if s.isLocal fa && !(s.rangeAdmitted (accessOf s (.pio e)) (fa % 2 ^ 31) n (acc == accStore)) then .error (.fail 6)
      else .ok (fa, sel)
/-- All pieces for all accesses: the first that does not pass. -/
def State.rangeBad (s : State) (e : EngineId) (accs : List Nat) (a n : Nat) : Option GateStop :=
  (accs.flatMap fun acc => (s.pieces e a n).map fun p => (acc, p)).findSome? fun q =>
    match s.pieceOk e q.1 q.2.1 q.2.2 with | .error r => some r | .ok _ => none
/-- The accesses of a pointer class. -/
def classAccs (c : Nat) : List Nat := if c = 1 then [accLoad] else if c = 2 then [accStore] else [accLoad, accStore]

/-- A fabric address lies in the engine's own scratchpad. -/
def State.inOwn (s : State) (e : EngineId) (fa : Nat) : Bool := s.isLocal fa && spadEngine (fa % 2 ^ 31) == some e
/-- The 16 bytes of a capability argument. -/
def State.tokenRead (s : State) (e : EngineId) (fa : Nat) (sel : TokSel) : Except GateStop Nat × State :=
  if s.inOwn e fa then s.ownRead e ((fa % 2 ^ 31 - 0x10000000) % 0x40000) 16 else ((s.eng e).farRead sel fa 16, s)
/-- The check of a token against the rights that the gate asks (Table 13-4, steps 1 to 3 of Table 13-6). -/
def State.tokenBad (s : State) (t : Token) (rq : Nat) : Option Nat :=
  if !(tokForm t) || !(s.tokSealed t) then some 8
  else if !(s.tokObject t) || tokIssuer t ≠ s.devId then some 9
  else if (tokRights t).toNat &&& rq ≠ rq then some 10 else none

/-- Argument k checked. -/
def State.argBad (s : State) (e : EngineId) (d : List Word) (k : Nat) : Option GateStop × State :=
  let g := s.eng e
  let a := (g.gr.getD k 0).toNat
  let c := gateClass d k
  if within c 1 3 then
    let n := (g.gr.getD (k + 1) 0).toNat
    (if 0x10000 < n then some (.fail 7) else s.rangeBad e (classAccs c) a n, s)
  else if c = 4 then
    if a % 16 ≠ 0 then (some (.fail 8), s)
    else match s.pieceOk e accLoad a 16 with
      | .error r => (some r, s)
      | .ok (fa, sel) => match s.tokenRead e fa sel with
        | (.error r, s) => (some r, s)
        | (.ok t, s) => ((s.tokenBad (BitVec.ofNat 128 t) (fld (d.getD 3 0) 15 0)).map .fail, s)
  else (none, s)
/-- The arguments in order: the first that fails. -/
def argsBad : List Nat → State → EngineId → List Word → Option GateBad × State
  | [], s, _, _ => (none, s)
  | k :: l, s, e, d =>
    match s.argBad e d k with
    | (some r, s) => (some (k, r), s)
    | (none, s) => argsBad l s e d

/-- A gate call's checks: the failure, or the descriptor (R384 to R387). -/
def State.gateCheck (s : State) (e : EngineId) (n : Nat) : Except GateBad (List Word) × State :=
  if s.gateCount (s.world e) ≤ n then (.error (0, .fail 1), s)
  else match s.gateRead e n with
    | (.error r, s) => (.error (0, r), s)
    | (.ok d, s) =>
      if !(bitOf (d.getD 0 0) 16) then (.error (0, .fail 2), s)
      else if !(bitOf (d.getD 0 0) 17) && !(s.eng e).sup then (.error (0, .fail 3), s)
      else match gateReserved d with
        | some k => (.error (k, .fail 4), s)
        | none => match argsBad [1, 2, 3, 4] s e d with
          | (some x, s) => (.error x, s)
          | (none, s) => (.ok d, s)

/-- The read that the checks of a gate call wait for. -/
def State.gateAsk (s : State) (e : EngineId) (n : Nat) : Option (TokSel × Nat × Nat) :=
  match (s.gateCheck e n).1 with
  | .error (_, .ask sel fa k) => some (sel, fa, k)
  | _ => none

/-- Banks of the own scratchpad that the checks read: of the descriptor and of tokens. -/
def State.gateBanks (s : State) (e : EngineId) (n : Nat) (d : List Word) : List Nat :=
  let b := s.gateBase (s.world e)
  (if bitOf b 31 then banksOf (ownAddr e (gateOfs b n)) 16 else []) ++ [1, 2, 3, 4].flatMap fun k =>
    if gateClass d k = 4 then
      (match s.pieceOk e accLoad ((s.eng e).gr.getD k 0).toNat 16 with
       | .ok (fa, _) => if s.inOwn e fa then banksOf (fa % 2 ^ 31) 16 else []
       | .error _ => [])
    else []
/-- The hold ec of the checks: 3 and one for each pointer argument, or for each page that it touches (R385), and those of the
yields of borrowed banks (R197). -/
def State.gateHold (s : State) (e : EngineId) (n : Nat) : Nat :=
  if s.gateCount (s.world e) ≤ n then 3
  else match (s.gateRead e n).1 with
    | .error _ => 3
    | .ok d =>
      let g := s.eng e
      3 + s.yieldHold e (s.gateBanks e n d) + sumNat ([1, 2, 3].map fun k =>
        if within (gateClass d k) 1 3 then
          (match s.world e with
           | .T => 1
           | .H => (s.pieces e (g.gr.getD k 0).toNat (min 0x10000 (g.gr.getD (k + 1) 0).toNat)).length)
        else 0)
/-- Pages that the checks translate enter the translation buffer (R333). -/
def State.gateWalks (s : State) (e : EngineId) (n : Nat) : State :=
  match s.world e, (s.gateRead e n).1 with
  | .H, .ok d =>
    let g := s.eng e
    let ps := [1, 2, 3].flatMap fun k =>
      if within (gateClass d k) 1 3 then
        (s.pieces e (g.gr.getD k 0).toNat (min 0x10000 (g.gr.getD (k + 1) 0).toNat)).map fun p =>
          (p, (classAccs (gateClass d k)).headD accLoad)
      else []
    forAll ps s fun p t => t.keepEng e (t.engXlat e p.1.1 p.1.2 p.2 g.sup).2
  | _, _ => s

/-- The event of a gate call with gate number n (R347, R386, R387). -/
def State.gateEvent (s : State) (e : EngineId) (n : Nat) : Event × State :=
  let g := s.eng e
  match s.gateCheck e n with
  | (.error (k, r), s) =>
    let r := match r with | .fail r => r | .ask _ _ _ => 12
    ({ cause := 8, faddr := g.pc, cdetail := at32 12 r ||| at32 8 k ||| at32 0 (n % 256), pc := g.pc }, s)
  | (.ok d, s) =>
    ({ cause := 0x10, faddr := 0, cdetail := at32 0 (n % 256), pc := g.pc + 1#32, target := some (fld (d.getD 0 0) 11 0)
       stack := if bitOf (d.getD 1 0) 31 && g.depth == 0 then some (BitVec.ofNat 32 (fld (d.getD 1 0) 18 0)) else none }, s)

/-- The hold of a gate call: stall ec, in which variable-latency operations go on (R385). -/
def State.gateWait (s : State) (e : EngineId) (n : Nat) : State :=
  holdMany (s.gateHold e n) (if s.gateCount (s.world e) ≤ n then s else s.gateWalks e n) e

end Sys2Proof.Machine
end

