-- ==== Sys2Proof/Machine/EngIssue.lean ====
section
/-!
DEFINITION. Machine/EngIssue.lean: the fetch of a bundle (R55 to R57, R125, R186), what holds its issue (Table 2-4), the events
that come before it (R345 to R349), and its issue (R42, R58 to R70, R236, R237).
-/
namespace Sys2Proof.Machine

/-! ## Fetch -/

/-- What the fetch of the bundle at PC gives: a bundle, a bundle exception, a stall, or a walk for a page (R333). -/
inductive Fetched where
  | bundle (w : W256)
  | fault (v : Event)
  | wait
  | walk (va : Nat)
deriving DecidableEq, Repr

/-- The PC names a bundle that the mode may run (R55, R57). -/
def Engine.pcValid (g : Engine) : Bool := if bitOf g.pc 31 then throughput g.mode else fld g.pc 30 12 == 0
/-- A fetch exception of the bundle at PC. -/
def Engine.fetchEvent (g : Engine) (cause : Nat) (faddr : Word) (cd : Nat) : Event :=
  { cause := cause, faddr := faddr, cdetail := BitVec.ofNat 32 cd, pc := g.pc }

/-- The instruction scratchpad as a bundle that issues now was fetched from it: without the words that `wrw` has written since
(R125). -/
def Engine.fetchView (g : Engine) : Engine :=
  g.iw.foldl (fun h w => if w.1 ≤ 3 then { h with imem := smPut (imemDef h.romA) h.imem w.2.1 w.2.2 } else h) g
/-- A bundle of the instruction scratchpad (R55, R186). -/
def State.fetchOwn (s : State) (e : EngineId) : Fetched × State :=
  let g := s.eng e
  let pc := fld g.pc 11 0
  match eccAll ((List.range 4).flatMap fun i => imemTouched e (8 * pc + 2 * i)) s false with
  | (s, true) => (.bundle (g.fetchView.bundleAt pc), s)
  | (s, false) => (.fault (g.fetchEvent 4 g.pc 3), s)

/-- A line that the fill from the own scratchpad has moved enters the instruction cache (R170, R186). -/
def State.fillOwn (s : State) (e : EngineId) (x line : Nat) : Fetched × State :=
  match s.spadCells e (.eng e) x 64 false (fullStrobe 64) 0 with
  | (.ok v, s) =>
    (.wait, (s.modEng e fun g => { g with
      ifill := none, icache := cacheFill g.icache { line := line, data := leBytes 64 v } s.freeCtr }).draw)
  | (_, s) => (.fault ((s.eng e).fetchEvent 4 (s.eng e).pc 3), s)

/-- Far code at data-space address `va` (R55, R57, R170, R180, R186): through the instruction cache, which an own scratchpad
fills by one word an ec. A bus error of its page walk has the virtual address in FADDR, as R332 has it, though Table 12-1 has the PC
for a fetch (DEDUCED, log 102). -/
def State.fetchFar (s : State) (e : EngineId) : Fetched × State :=
  let g := s.eng e
  let va := fld g.pc 25 0 * 32
  if g.needsWalk va && g.walked.isNone then (.walk va, s)
  else match (s.engXlat e va 32 accFetch g.sup).1 with
  | .error x => (.fault (g.fetchEvent x.cause (BitVec.ofNat 32 x.addr) x.cdetail), s)
  | .ok (fa, sel) =>
    match lineOf g.icache fa, g.fetchErr.filter fun q => q.1 == fa / 64 with
    | some l, _ => (.bundle (BitVec.ofNat 256 (l.bytes fa 32)), s)
    | none, some (_, f) => (.fault (g.fetchEvent f.cause f.faddr f.cdetail.toNat), s)
    | none, none =>
      let req (t : Token) : FabReq :=
        { write := false, addr := fa, len := 32, strobe := fullStrobe 32, data := 0, token := t.toNat, va := g.pc }
      if s.isLocal fa then
        let x := fa % 2 ^ 31
        if spadEngine x = some e then
          match g.ifill.filter (fun q => q.1 == fa / 64), s.ownRefused e (x / 64 * 64) 64 with
          | some (_, k, _), _ => if k < 8 then (.wait, s) else s.fillOwn e (x / 64 * 64) (fa / 64)
          | none, some b => (.fault (g.fetchEvent 7 (BitVec.ofNat 32 va) (g.owner b)), s)
          | none, none =>
            let w := s.yieldHold e (banksOf (x / 64 * 64) 64)
            (.wait, (s.yieldFor e (x / 64 * 64) 64 (.eng e)).modEng e fun g => { g with ifill := some (fa / 64, 0, w) })
        else match s.masterCheck (s.engWho e) x 32 false with
          | some .part => (.fault (g.fetchEvent 6 (BitVec.ofNat 32 va) (11 + 16 * accFetch)), s)
          | some _ => (.fault (g.fetchEvent 4 g.pc 3), s)
          | none => (.wait, s.modEng e (·.askFill true (req 0)))
      else match s.outToken g.world sel fa 32 accFetch va with
        | .error x => (.fault (g.fetchEvent x.cause (if x.cause = 4 then g.pc else BitVec.ofNat 32 va)
            (if x.cause = 4 then 3 else x.cdetail)), s)
        | .ok t => (.wait, s.modEng e (·.askFill true (req t)))

/-- The bundle at PC; a repeated bundle is fetched once, and its iterations run the words of that fetch (R125). -/
def State.fetch (s : State) (e : EngineId) : Fetched × State :=
  let g := s.eng e
  if g.repLeft.isSome then (.bundle g.fetched, s)
  else if !g.pcValid then (.fault (g.fetchEvent 6 g.pc 0), s)
  else if bitOf g.pc 31 then s.fetchFar e else s.fetchOwn e

/-! ## The moves that take effect -/

/-- The bundle issues without its moves: REPN = 63 with LC = 0 (R63). -/
def Engine.suppressed (g : Engine) (b : Bundle) : Bool := b.repn == 63 && g.lc == 0 && g.repLeft.isNone
/-- Moves whose guards are true, with the values that they read (R42 step 1, R52 to R54). -/
def Engine.liveMoves (g : Engine) (b : Bundle) : List Live :=
  if g.suppressed b then [] else (b.moves.filter fun m => g.guard m.guard).map fun m => (m, g.srcVal m.src)
/-- Triggers among moves, in slot order: slot, unit, opcode. -/
def trigs (ms : List Live) : List (Nat × Nat × Nat) :=
  ms.filterMap fun m => match m.1.op with | some n => some (m.1.slot, m.1.dunit, n) | none => none
/-- The control operation among moves: its opcode and trigger value. -/
def cuOp (ms : List Live) : Option (Nat × Word) :=
  ms.findSome? fun m => match m.1.op with | some n => if m.1.dunit = 8 then some (n, m.2.setWidth 32) else none | none => none

/-! ## Holds (Table 2-4) -/

/-- A hold ec: whether a stall cause holds, the operations that go on in it, whether the element sequencer does, and what else
it begins: a launch wait, a wake, a walk, a read of a gate check, a fetch; and the slots whose triggers come too early (R50). -/
structure Hold where
  fetch  : Bool := false
  stall  : Bool := true
  adv    : List Nat := []
  seq    : Bool := false
  rate   : List Nat := []
  launch : Bool := false
  wake   : Bool := false
  walk   : Option (Nat × Nat) := none
  ask    : Option (TokSel × Nat × Nat) := none
deriving DecidableEq, Repr
def Hold.and (a b : Hold) : Hold :=
  { stall := a.stall || b.stall, adv := a.adv ++ b.adv, seq := a.seq || b.seq, rate := a.rate ++ b.rate,
    launch := a.launch || b.launch, wake := a.wake || b.wake, walk := a.walk.or b.walk, ask := a.ask.or b.ask,
    fetch := a.fetch || b.fetch }
/-- All causes together; a launch wait counts only alone. -/
def holdAll : List Hold → Option Hold
  | [] => none
  | [h] => some h
  | h :: l => match holdAll l with
    | some k => some { h.and k with launch := false }
    | none => some h

/-- The precise arithmetic wait (R369): the trap-enabled operations in flight. -/
def Engine.preciseHold (g : Engine) : Option Hold :=
  let ids := (g.inflight.filter fun o => trapEnabled o.unit o.opcode).map (·.id)
  if g.precise && !ids.isEmpty then some { adv := ids } else none
/-- The WAIT-UNTIL hold (R128). -/
def State.waitHold (s : State) (e : EngineId) : List Hold :=
  match (s.eng e).waitTo with
  | some t => if timeReached t (s.engTim e) then [] else [{ stall := false }]
  | none => []
/-- A read of a result port whose unit has a variable-latency operation in flight (R51). -/
def Engine.readsVariable (g : Engine) (ms : List Live) : Bool :=
  ms.any fun m => match m.1.src with
    | .sock u p => (p == 8 || p == 9) && decide (3 ≤ u) && g.inflight.any fun o => o.unit == u && o.variable
    | .imm _ => false
/-- The issue-rate hold (R50). -/
def Engine.rateHolds (g : Engine) (ms : List Live) : List Hold :=
  (trigs ms).filterMap fun t =>
    if t.2.1 = 8 ∨ g.rateLeft t.2.1 t.2.2 = 0 then none
    else
      let q := isSeq t.2.1 t.2.2
      let busy := g.inflight.filter fun o => o.unit == t.2.1 && isSeq o.unit o.opcode == q
      some { adv := (busy.getLast?.map (·.id)).toList, seq := q, rate := [t.1] }
/-- Direct register writes leave too few `vr` write ports (R47); beside them stand the writes of a bundle that has issued in the same
ec. -/
def Engine.vrHold (g : Engine) (ms : List Live) : List Hold :=
  let n := (regWrites (ms.map (·.1)) 1).length
  if g.vrDirect = 0 ∨ n = 0 ∨ g.vrDirect + n ≤ 2 then [] else [{}]
/-- Loads that reach the own scratchpad while a scatter has elements to write (R150). -/
def State.scatterHold (s : State) (e : EngineId) (ms : List Live) : List Hold :=
  let g := s.eng e
  let open_ := g.inflight.filter fun o => match o.act with
    | .seq load ps _ | .mem load ps _ => isSeq o.unit o.opcode && !load && !ps.isEmpty
    | _ => false
  let own (u n : Nat) : Bool := isMem u && memLoad u n &&
    !(ownBanks ((memParts u n (g.portsAfter ms u)).map (s.resolve e u n))).isEmpty
  if open_.isEmpty || !((trigs ms).any fun t => own t.2.1 t.2.2) then [] else [{ adv := open_.map (·.id), seq := true }]
/-- A trigger of the vector unit while it sleeps or wakes (R156). -/
def Engine.wakeHold (g : Engine) (ms : List Live) : List Hold :=
  if throughput g.mode && g.vpwr ≠ .on && (trigs ms).any fun t => t.2.1 == 10 || t.2.1 == 11 then [{ wake := true }] else []

/-- Long operations that a trigger adds (R354). -/
def State.longCount (s : State) (e : EngineId) (ms : List Live) (u n : Nat) : Nat :=
  let g := s.eng e
  let p := g.portsAfter ms u
  if longOp u n then 1
  else if isMem u then
    let rs := (memParts u n p).map (s.resolve e u n)
    if !(anyFab rs) || (!(memLoad u n) && s.buffers e rs) then 0 else 1
  else if u = 12 then
    match s.pioWay e (n == 1) (p.b.setWidth 32) (p.a.setWidth 32) with
    | .far _ => if n = 0 then 2 else 1
    | _ => 0
  else 0
/-- The long-operation limit: while no variable-latency operation is among those in flight, the others go on (R354). -/
def State.longHold (s : State) (e : EngineId) (ms : List Live) : List Hold :=
  let g := s.eng e
  let new := sumNat ((trigs ms).map fun t => s.longCount e ms t.2.1 t.2.2)
  let longs := g.inflight.filter fun o => o.long ≠ 0
  if new = 0 ∨ sumNat (longs.map (·.long)) + new ≤ 3 then []
  else if longs.any (·.variable) then [{}]
  else [{ adv := longs.map (·.id), seq := true }]
/-- An own `out` to ENG_ILDATA behind an unwritten one (R179). -/
def State.ilHold (s : State) (e : EngineId) (ms : List Live) : List Hold :=
  let g := s.eng e
  let ahead := g.inflight.filter fun o => match o.act with | .pioOut p _ => p == 0x824 | _ => false
  let again := (trigs ms).any fun t => t.2.1 == 12 && t.2.2 == 1 && (g.portsAfter ms 12).b.setWidth 32 == 0x824#32
  if again && (!ahead.isEmpty || g.ilBuf.isSome) then [{ adv := ahead.map (·.id) }] else []
/-- A store for which the buffer has too few free entries (R182); one of more than 8 waits for an empty buffer. -/
def State.bufferHold (s : State) (e : EngineId) (ms : List Live) : List Hold :=
  let g := s.eng e
  let need (u n : Nat) : Nat :=
    let rs := (memParts u n (g.portsAfter ms u)).map (s.resolve e u n)
    if isMem u && !(memLoad u n) && s.buffers e rs then (fabSpots rs).length else 0
  let n := sumNat ((trigs ms).map fun t => need t.2.1 t.2.2)
  if n = 0 ∨ g.sbuf.length + n ≤ 8 ∨ g.sbuf.isEmpty then [] else [{}]
/-- Accesses of a bundle's loads and stores, with their access codes, in slot order. -/
def State.dataPages (s : State) (e : EngineId) (ms : List Live) : List (Nat × Nat) :=
  (trigs ms).flatMap fun t =>
    if !(isMem t.2.1) then []
    else ((memParts t.2.1 t.2.2 ((s.eng e).portsAfter ms t.2.1)).filter fun p =>
      decide (p.strobe ≠ 0) && (t.2.1 == 9 || decide (p.va.toNat % vlsuAlign t.2.2 = 0))).map
        fun p => (p.va.toNat, accOf (memLoad t.2.1 t.2.2))
/-- A miss in the translation buffer (R333). -/
def State.walkHold (s : State) (e : EngineId) (ms : List Live) : List Hold :=
  let g := s.eng e
  match (s.dataPages e ms).find? fun p => g.needsWalk p.1 && g.walked.isNone with
  | some p => [{ walk := some p }]
  | none => []
/-- In a throughput mode a read waits until the result that its schedule cycle gives is at the port (R66). -/
def Engine.orderHold (g : Engine) (ms : List Live) : List Hold :=
  let late := ms.any fun m => match m.1.src with
    | .sock u p => ((p == 8 || p == 9) && decide (3 ≤ u) || u == 1) && decide (g.ec < g.readyAt.getD u 0)
    | .imm _ => false
  if throughput g.mode && late then [{ stall := false }] else []

/-- The holds of a bundle but for its launch wait. -/
def State.issueHolds (s : State) (e : EngineId) (ms : List Live) : Option Hold :=
  let g := s.eng e
  holdAll (s.waitHold e ++ g.rateHolds ms ++ g.vrHold ms ++ s.scatterHold e ms ++ g.wakeHold ms ++ s.longHold e ms ++
    s.ilHold e ms ++ s.bufferHold e ms ++ s.walkHold e ms ++ g.orderHold ms)

/-- One hold ec passes (R48, R49). -/
def State.holdWith (s : State) (e : EngineId) (h : Hold) : State :=
  let s := if h.fetch then (s.fetch e).2 else s
  let s := match h.walk with | some p => s.walkPage e p.1 p.2 | none => s
  let s := match h.ask with | some q => s.askTable e q.1 q.2.1 q.2.2 | none => s
  let s := s.modEng e fun g =>
    let g := if h.wake then g.wake else g
    { g with launchWait := g.launchWait || h.launch, seqBusy := if h.seq then g.seqBusy - 1 else g.seqBusy
             haz := { g.haz with rateHeld := g.haz.rateHeld ++ h.rate.filter fun i => !(g.haz.rateHeld.contains i) } }
  s.holdEc e h.stall h.adv

/-! ## Launch (R236, R237) -/

/-- What the launch comparison says. -/
inductive Launched where
  | wait
  | onTime
  | miss (late : Nat)
deriving DecidableEq, Repr
/-- The comparison of a launch-timed bundle that has reached issue; only its first iteration compares (R65). -/
def State.launch (s : State) (e : EngineId) (b : Bundle) : Option Launched :=
  let g := s.eng e
  if !b.timed || g.repLeft.isSome then none
  else
    let past := s.ecPast e g.launch
    some (if past < 0 then .wait else if past = 0 ∨ g.launchWait then .onTime else .miss past.toNat)
/-- LMISS_POL of the engine's world: a miss faults. -/
def State.missFaults (s : State) (e : EngineId) : Bool := bitOf (s.n0 0x5010) (worldBit (s.world e))
/-- LAUNCH_STAT and TIM_LAST record a launch or a miss. -/
def State.recordLaunch (s : State) (e : EngineId) (late : Option Nat) (counted : Bool) : State :=
  let t := s.engTim e
  s.modEng e fun g =>
    let g := { g with timLast := t }
    match late with
    | none => g
    | some n =>
      let v := setFld (g.ioGet 0x870) 15 0 (min 0xFFFF n)
      g.ioPut 0x870 (if counted then bumpFld v 31 16 1 else v)

/-! ## What comes next at an entry point -/

/-- The next ec of an engine whose present schedule cycle is free. -/
inductive Next where
  | event (v : Event)
  | hold (h : Hold)
  | issue (b : Bundle) (ms : List Live) (hs : List Hazard)
deriving DecidableEq, Repr

/-- A Host-service engine that is throttled may not issue in the present ec (R430). -/
def State.throttledOut (s : State) (e : EngineId) : Bool :=
  s.throttled && s.world e = .H && decide (0 < (s.eng e).throttle)

/-- An event, else an interrupt, else a hold. -/
def Engine.orHold (g : Engine) (h : Hold) : Next := match g.intEvent with | some v => .event v | none => .hold h
/-- A read of a supervisor sys register at user level (R131): its number. -/
def Engine.sysEvent (g : Engine) (ms : List Live) : Option Event :=
  if g.sup then none
  else match ms.find? fun m => m.1.dunit == 15 && m.1.op == some 0 && sysSup (m.2.toNat % 256) with
    | some m => some { cause := 2, faddr := g.pc, cdetail := BitVec.ofNat 32 (m.2.toNat % 256), pc := g.pc }
    | none => none
/-- Cause 0x01 or 0x02 of a bundle at decode (R45, R86 to R88). -/
def Engine.decodeEvent (g : Engine) (b : Bundle) : Option Event :=
  match b.bad, b.priv with
  | some (r, i), _ => some { cause := 1, faddr := g.pc, cdetail := BitVec.ofNat 32 (r + i * 2 ^ 8), pc := g.pc }
  | none, some i => if g.sup then none else some { cause := 2, faddr := g.pc, cdetail := BitVec.ofNat 32 (i * 2 ^ 8), pc := g.pc }
  | none, none => none

/-- The last steps before a bundle issues: gate call, launch comparison, interrupts (R236, R237, R347 to R349). -/
def State.nextIssue (s : State) (e : EngineId) (b : Bundle) (ms : List Live) (hs : List Hazard) : Next × State :=
  let g := s.eng e
  match cuOp ms with
  | some (6, v) =>
    match s.gateAsk e v.toNat with
    | some q => (g.orHold { ask := some q }, s)
    | none =>
      let (v, s) := (s.gateWait e v.toNat).gateEvent e v.toNat
      (.event v, s)
  | _ =>
    match s.launch e b with
    | some .wait => (g.orHold { stall := false, launch := true }, s)
    | some (.miss n) =>
      if s.missFaults e then
        (.event { cause := 0x0E, faddr := g.pc, cdetail := BitVec.ofNat 32 (min 0xFFFF n), pc := g.pc },
         s.recordLaunch e (some n) false)
      else match g.intEvent with
        | some v => (.event v, s)
        | none => (.issue b ms hs, s.recordLaunch e (some n) true)
    | some .onTime => match g.intEvent with
        | some v => (.event v, s)
        | none => (.issue b ms hs, s.recordLaunch e none false)
    | none => match g.intEvent with
        | some v => (.event v, s)
        | none => (.issue b ms hs, s)

/-- A bundle that has reached issue (R346, R348): the value that it moves to `sys.t:rd` is known once nothing holds it (R131). A
bundle whose hazard traps has not issued, so its hazards of the kinds that are only counted are not recorded for it; it meets
them again after the return, which exempts it (DESIGN CHOICE, log 82). -/
def State.nextBundle (s : State) (e : EngineId) (b : Bundle) : Next × State :=
  let g := s.eng e
  match g.decodeEvent b with
  | some v => (.event v, s)
  | none =>
    let ms := g.liveMoves b
    if g.readsVariable ms then (g.orHold {}, s)
    else
      let hs := s.hazards e b ms
      let trap : Option Event := (hs.find? fun h => g.hazTraps h.kind).map fun h =>
        { cause := 0x0F, faddr := g.pc, cdetail := h.detail, pc := g.pc }
      match s.issueHolds e ms with
      | some h => (match trap with | some v => .event v | none => g.orHold h, s)
      | none => match (g.sysEvent ms).or trap with
        | some v => (.event v, s)
        | none => s.nextIssue e b ms hs

/-- What comes before any bundle at an entry point: throttling, in MD3 and MD5 the wait for a trap that is known to come (R369),
a trap or an operation exception (R348), and the wait for a trap-enabled operation. -/
def State.entryFirst (s : State) (e : EngineId) : Option Next :=
  let g := s.eng e
  let traps := g.inflight.any fun o => trapEnabled o.unit o.opcode && o.trapAt.isSome
  if s.throttledOut e then some (.hold {})
  else match g.preciseHold with
  | some h => if traps then some (.hold h) else some (match g.trapDue.or g.opEvent with | some v => .event v | none => .hold h)
  | none => (g.trapDue.or g.opEvent).map .event

/-- The next ec. Events of what is in flight come before those of the bundle (R348). -/
def State.next (s : State) (e : EngineId) : Next × State :=
  let g := s.eng e
  match s.entryFirst e with
  | some n => (n, s)
  | none =>
    match s.fetch e with
    | (.fault v, s) => (.event v, s)
    | (.wait, s) => ((s.eng e).orHold { fetch := true }, s)
    | (.walk va, s) => (g.orHold { walk := some (va, accFetch) }, s)
    | (.bundle w, s) => (s.modEng e fun g => { g with fetched := w }).nextBundle e (decodeBundle w)

/-! ## Control transfers (R55 to R60, R67 to R69) -/

/-- The PC after a bundle that transfers no control (R56). -/
def pcNext (pc : Word) : Word :=
  if bitOf pc 31 then setFld pc 25 0 (fld pc 25 0 + 1) else BitVec.ofNat 32 ((pc.toNat + 1) % 0x1000)
/-- The target of a control operation that is taken (Table 2-5), with LC and RA as they stand before the bundle. -/
def Engine.transfer (g : Engine) (n : Nat) (v : Word) : Option Word :=
  match n with
  | 0 | 2 => some v
  | 1 | 3 => some (g.pc + v)
  | 4 => some g.ra
  | 5 => if g.lc - 1#32 = 0 then none else some v
  | _ => none
/-- RA and LC as a control operation leaves them. -/
def Engine.cuRegs (g : Engine) (pc lc : Word) (n : Nat) : Engine :=
  if n = 2 ∨ n = 3 then { g with ra := pc + 1#32 } else if n = 5 then { g with lc := lc - 1#32 } else g

/-- BP_EN and DI_EN in force (R71). -/
def Engine.bpEn (g : Engine) : Bool := bitOf (g.effIo 0x800) 1
def Engine.diEn (g : Engine) : Bool := bitOf (g.effIo 0x800) 0
/-- The branch target buffer's entry for a bundle. -/
def Engine.btbHit (g : Engine) (pc : Word) : Option BtbEnt :=
  match g.btb.find? fun p => p.1 == fld pc 7 0 with
  | some (_, b) => if b.pc = pc then some b else none
  | none => none
/-- The target that a bundle with control operation n is predicted to take (R67). What a `cu.t:ret` on an empty return stack is
predicted to do R67 does not say: not taken (DESIGN CHOICE, log 99). -/
def Engine.predict (g : Engine) (n : Nat) : Option Word :=
  if !g.bpEn then none
  else if n = 4 then g.rstack.head?
  else match g.btbHit g.pc with
    | some b => if 2 ≤ b.count then some b.target else none
    | none => none
/-- An entry of the branch target buffer replaced. -/
def btbPut (l : SMap BtbEnt) (pc : Word) (b : BtbEnt) : SMap BtbEnt := smIns l (fld pc 7 0) b
/-- The buffer and the return stack learn the outcome (R67). Each `cu.t:ret` pops the stack, one whose guard is false too, since R67
makes only a push depend on the transfer being taken (DEDUCED, log 99). -/
def Engine.learn (g : Engine) (pc : Word) (n : Nat) (into : Option Word) (ra : Word) : Engine :=
    let g := match g.btbHit pc, into with
      | some b, some t => { g with btb := btbPut g.btb pc { b with target := t, count := min 3 (b.count + 1) } }
      | some b, none => { g with btb := btbPut g.btb pc { b with count := b.count - 1 } }
      | none, some t => { g with btb := btbPut g.btb pc { pc := pc, target := t, count := 2 } }
      | none, none => g
    if (n = 2 ∨ n = 3) ∧ into.isSome then { g with rstack := (ra :: g.rstack).take 4 }
    else if n = 4 then { g with rstack := g.rstack.tail } else g

/-! ## Issue (R42) -/

/-- Operations in the order of their numbers. -/
def insertOp (o : Op) : List Op → List Op
  | [] => [o]
  | x :: l => if o.id ≤ x.id then o :: x :: l else x :: insertOp o l
def orderOps (l : List Op) : List Op := l.foldr insertOp []

/-- The number of the next operation. -/
def Engine.setId (g : Engine) (n : Nat) : Engine := { g with opId := n }
/-- The operations of a bundle have started: those in flight stand in the order of their numbers. -/
def Engine.endStart (g : Engine) (n : Nat) : Engine := { g with opId := n, inflight := orderOps g.inflight }
/-- Step 3 of R42: operations start, loads before stores (R119), numbered in slot order. -/
def State.startAll (s : State) (e : EngineId) (pc : Word) (ts : List (Nat × Nat × Nat)) : State :=
  let base := (s.eng e).opId
  let ts := (List.range ts.length).zip ts
  let isStore (t : Nat × Nat × Nat × Nat) : Bool := isMem t.2.2.1 && !(memLoad t.2.2.1 t.2.2.2)
  let order := ts.filter (fun t => !(isStore t)) ++ ts.filter isStore
  let s := forAll order s fun t s =>
    (s.modEng e (·.setId (base + t.1))).startOp e pc t.2.1 t.2.2.1 t.2.2.2 false
  s.modEng e (·.endStart (base + ts.length))

/-- A new value of LC moved by a bundle. -/
def movesLc (ms : List Live) : Bool := ms.any fun m => m.1.dunit == 8 && m.1.dport == 16
/-- Iterations left after this one: none ends the repeat (R61, R63, R363). LC has this iteration's value. -/
def Engine.iterations (g : Engine) (b : Bundle) (idle : Bool) : Option Nat :=
  if b.repn = 0 then none
  else if b.repn = 63 then (if idle ∨ g.lc = 0 then none else some 0)
  else
    let left := match g.repLeft with | some n => n | none => if g.repResume = 0 then b.repn + 1 else g.repResume
    if left ≤ 1 then none else some (left - 1)

/-- Steps 1 and 2 of R42 and the registers of a control operation. -/
def Engine.issueWrites (g : Engine) (b : Bundle) (ms : List Live) : Engine :=
  let h := ms.foldl (fun h m => h.moveWrite m.1 m.2) g
  let h := match cuOp ms with | some (n, _) => h.cuRegs g.pc g.lc n | none => h
  if b.repn = 63 ∧ !(g.suppressed b) ∧ !(movesLc ms) then { h with lc := h.lc - 1#32 } else h

/-- The control operation of a bundle whatever its guard. -/
def Bundle.cu (b : Bundle) : Option Nat := b.moves.findSome? fun m => if m.dunit = 8 then m.op else none
/-- PC, iterations and bubbles after the issue of a bundle, and its prediction; a bundle with `rte` keeps its PC until it returns. A
`waitu` makes what issues next hold, the next iteration of its own bundle too where it is repeated: R128 speaks of the bundle after
it (DESIGN CHOICE, log 100). -/
def Engine.issueNext (g0 : Engine) (b : Bundle) (ms : List Live) (g : Engine) : Engine :=
  let into : Option Word := match cuOp ms with | some (n, v) => g0.transfer n v | none => none
  let left := g.iterations b (g0.suppressed b)
  let g := { g with
    pc := match into with | some t => t | none => if left.isSome || (cuOp ms).any (fun c => c.1 == 7) then g0.pc else pcNext g0.pc
    repLeft := left, repResume := 0, waitTo := if (trigs ms).any (fun t => t.2.1 == 14 && t.2.2 == 2) then g.waitTo else none
    launchWait := false, walked := none, tables := [], hazExempt := false, cycleOpen := false
    activeB := if bitOf g0.pc 31 then g.activeB else halfOf g0.pc
    bubbles := if into.isSome then 2 else 0 }
  match b.cu with
  | some n => if throughput g.mode && decide (n < 6) then g.learn g0.pc n into (g0.pc + 1#32) else g
  | none => g
/-- A misprediction (R68). -/
def Engine.mispredicts (g : Engine) (b : Bundle) (ms : List Live) : Bool :=
  match b.cu with
  | some n => throughput g.mode && decide (n < 6) &&
      g.predict n != (match cuOp ms with | some (n, v) => g.transfer n v | none => none)
  | none => false

/-- One more bundle has issued since the operations in flight were triggered (R367). -/
def Engine.laterBundle (g : Engine) : Engine :=
  let op (o : Op) : Op := if o.away then o else { o with dist := o.dist + 1 }
  let owed (o : Owed) : Owed := if o.away then o else { o with dist := o.dist + 1 }
  { g with inflight := g.inflight.map op, owed := g.owed.map owed }
/-- Steps 1 and 2 of R42 with their records: hazards, distances and mispredictions. -/
def Engine.issued (g : Engine) (b : Bundle) (ms : List Live) (hs : List Hazard) : Engine :=
  let h := ((g.hazIssue hs).issueWrites b ms).laterBundle
  if g.mispredicts b ms then h.ioPut 0x804 (bumpFld (h.ioGet 0x804) 31 16 1) else h
/-- A bundle issues in the present ec; the ec does not pass yet. -/
def State.issueAt (s : State) (e : EngineId) (b : Bundle) (ms : List Live) (hs : List Hazard) : State :=
  let g := s.eng e
  let s := s.modEng e (·.issued b ms hs)
  let s := s.startAll e g.pc ((trigs ms).filter fun t => t.2.1 ≠ 8)
  s.modEng e (g.issueNext b ms)

/-! ## Dual issue (R70) -/

/-- Sockets that a bundle reads: sources, guards, the operand ports that its operations read as they stand (R98), RA and LC of
its control operation. -/
def Bundle.reads (b : Bundle) : List (Nat × Nat) :=
  b.moves.flatMap fun m =>
    (match m.src with | .sock u p => [(u, p)] | .imm _ => []) ++ (if m.guard % 8 = 0 then [] else [(2, m.guard % 8)]) ++
    (match m.op with
     | some n =>
       if m.dunit = 8 then (if n = 4 then [(8, 17)] else if n = 5 then [(8, 16)] else [])
       else (standingPorts m.dunit n).map fun p => (m.dunit, p)
     | none => [])
/-- Sockets that a bundle writes or triggers. -/
def Bundle.writes (b : Bundle) : List (Nat × Nat) :=
  b.moves.flatMap fun m => m.dests ++ (if m.op.isSome then [(m.dunit, 8), (m.dunit, 9)] else [])
/-- After a bundle with a trap-enabled trigger a mode with precise traps holds the next one in that ec (R369, condition 7). -/
def Engine.pairBar (g : Engine) (ms : List Live) : Bool := g.precise && (trigs ms).any fun t => trapEnabled t.2.1 t.2.2
/-- The `vr` write ports that the moves of the first bundle of a pair use count beside those of direct writes (R47). -/
def Engine.vrUsed (g : Engine) (ms : List Live) : Engine :=
  if g.vrDirect = 0 then g else { g with vrDirect := g.vrDirect + (regWrites (ms.map (·.1)) 1).length }
/-- Two bundles that may issue in one ec as far as their encodings say (conditions 1 to 5). -/
def pairs (a b : Bundle) : Bool :=
  a.repn == 0 && b.repn == 0 && !a.timed && !b.timed && !a.np && !b.np && a.cu.isNone &&
    !(b.reads.any a.writes.contains) && !((b.moves.flatMap (·.dests)).any (a.moves.flatMap (·.dests)).contains) &&
    portsOk (a.moves ++ b.moves)

/-- The ec of an issue passes: 3 more after a misprediction (R68), and the throttle counts from it (R430). -/
def Engine.issueTime (g : Engine) (missed slow : Bool) : Engine :=
  let n := if missed then 4 else 1
  let g := if throughput g.mode then g.iwAge n else g
  passEcs n { g with throttle := if slow then 4 else g.throttle }
/-- The ec of an issue passes for engine e. -/
def State.issueEc (s : State) (e : EngineId) (missed : Bool) : State :=
  s.modEng e (·.issueTime missed (s.throttled && s.world e = .H))
/-- An `rte` that issued returns now (R360). -/
def State.issueEnd (s : State) (e : EngineId) (ms : List Live) (missed : Bool) : State :=
  let back := s.issueEc e missed
  if (cuOp ms).any fun c => c.1 == 7 then back.rte e else back

/-- A bundle issues in state s, and the one after it with it where the two pair; none where they do not. -/
def State.issuePair (s : State) (e : EngineId) (b : Bundle) (ms : List Live) (hs : List Hazard) : Option State :=
  let g := s.eng e
  let s1 := s.issueAt e b ms hs
  if !(throughput g.mode) || !g.diEn || (s.throttled && s.world e = .H) || (s1.eng e).holdDue ≠ 0 || g.pairBar ms then none
  else
    let s2 := ((s1.modEng e (·.vrUsed ms)).advance e).modEng e fun g => { g with cycleOpen := true }
    match s2.next e with
    | (.issue b2 ms2 hs2, s2) =>
      if pairs b b2 then
        let missed2 := (s2.eng e).mispredicts b2 ms2
        let s3 := (s2.issueAt e b2 ms2 hs2).modEng e fun g => g.ioPut 0x804 (bumpFld (g.ioGet 0x804) 15 0 1)
        some (s3.issueEnd e ms2 missed2)
      else none
    | _ => none
/-- A bundle that has reached issue in state t issues, with the bundle after it where the two pair. A pair takes two schedule cycles
in one ec, which begin from state s. -/
def State.issueRun (t : State) (e : EngineId) (s : State) (b : Bundle) (ms : List Live) (hs : List Hazard) : State :=
  let alone := (t.issueAt e b ms hs).issueEnd e ms ((t.eng e).mispredicts b ms)
  if (t.issuePair e b ms hs).isNone then alone
  else match (s.openCycle e 1).next e with
    | (.issue b ms hs, t) => (t.issuePair e b ms hs).getD alone
    | _ => alone

/-- The next ec of a running engine: an entry, a hold ec, or the issue of a bundle. -/
def State.engineEc (s : State) (e : EngineId) : State :=
  if !(s.eng e).running then s
  else if (s.eng e).returning.isSome then s.returnOn e
  else
    let s := s.nearCycle e
    match (s.openCycle e).next e with
    | (.event v, t) => t.enter e v
    | (.hold h, _) => s.holdWith e h
    | (.issue b ms hs, t) => t.issueRun e s b ms hs

end Sys2Proof.Machine
end

