-- ==== Sys2Proof/Machine/EngFab.lean ====
section
/-!
DEFINITION. Machine/EngFab.lean: the fabric transactions of engines: the access at its target (R317), the grant of a request at
its first target port (R318, R319, R329), and what a response completes (R51, R177, R180 to R183, R330, R356).
-/
namespace Sys2Proof.Machine

/-! ## The access -/

/-- Where a request leads on this package. -/
def State.fabPlace (s : State) (r : FabReq) : Option Place :=
  if s.isLocal r.addr then place (r.addr % 2 ^ 31) r.len else none
/-- The first target port of a request of engine e (R318, R329). -/
def State.fabPort (s : State) (e : EngineId) (r : FabReq) : DieId × Nat :=
  (s.wayTo (engDie e) r.addr r.len).headD (newt0, 0x2F)
/-- The identity with which a request of engine e reaches its target: at the level of the code that asked (R123). -/
def State.fabWho (s : State) (e : EngineId) (r : FabReq) : Who :=
  let m := s.engWho e
  { m with acc := { (if r.pio then accessOf s (.pio e) else m.acc) with sup := r.sup } }

/-- The first run of bytes that strobes select: its place and its length. -/
def firstRun (strobe len : Nat) : Nat × Nat :=
  let lo := ((List.range len).find? strobe.testBit).getD 0
  (lo, ((List.range (len - lo)).find? fun j => !(strobe.testBit (lo + j))).getD (len - lo))
/-- What a packet to another package carries of an access: its first run of selected bytes, since a packet has no strobes (R146,
log 35). -/
def FabReq.run (r : FabReq) : Nat × Nat × Nat :=
  let (lo, n) := firstRun r.strobe r.len
  (r.addr + lo, n, r.data / 2 ^ (8 * lo) % 2 ^ (8 * n))
/-- The request for the runs that are left. -/
def FabReq.rest (r : FabReq) : FabReq :=
  let (lo, n) := firstRun r.strobe r.len
  { r with strobe := r.strobe / 2 ^ (lo + n) * 2 ^ (lo + n) }

/-- The access of a granted request: its answer, none where that comes later. -/
def State.fabPerform (s : State) (e : EngineId) (r : FabReq) : Option Resp × State :=
  if r.strobe = 0 then (some (.ok 0), s)
  else if s.wayDown (engDie e) r.addr r.len then (some (.bus 1), s)
  else if s.isLocal r.addr then
    match s.fabPlace r with
    | none => (some (.bus 0), s)
    | some pl =>
      let (x, s) : Resp × State := match pl with
        | .reg t =>
          let a := (s.fabWho e r).acc
          let (x, s) : Resp × State := if r.write then s.regWriteBy a t (BitVec.ofNat 32 r.data) (some (.engine e)) else s.regRead a t
          (if x = .misaligned then .bus 0 else x, s)
        | _ => s.targetAccess (s.fabWho e r) pl (r.addr % 2 ^ 31) r.len r.write r.strobe r.data (some (.engine e))
      (if x = .held then none else some (s.returned (engDie e) r.addr r.len x), s)
  else
    let (a, n, data) := r.run
    s.chainAsk (.engine e) (BitVec.ofNat 128 r.token) r.write a n (if r.write then data else 0)

/-- The outstanding request of engine e has reached its target. -/
def State.fabReach (s : State) (e : EngineId) : State :=
  match (s.eng e).fabOut with
  | some f =>
    match s.fabPerform e f.req with
    | (some x, s) => s.fabDone (some (.engine e)) x
    | (none, s) => s
  | none => s

/-! ## Grant -/

/-- The first request of engine e becomes the outstanding one (R318). -/
def Engine.takeFirst (g : Engine) : Engine :=
  match g.fabQ with
  | (r, u) :: rest => { g with fabQ := rest, fabOut := some { req := r, use := u, resp := none } }
  | [] => g
/-- A request b of engine e that was granted at its first target port goes on, and reaches its target or waits on its way. -/
def State.grantTo (s : State) (e : EngineId) (b : Beat) : State :=
  let s := s.modEng e (·.takeFirst)
  if b.route.isEmpty then s.fabReach e else { s with beats := s.beats ++ [b] }
/-- The first request of engine e asks its first target port in the present fc (R319). -/
def State.grant (s : State) (e : EngineId) : State :=
  match s.engBeat e with
  | some b =>
    match goOn b.route s b with
    | (b', s') => if b'.route.length = b.route.length then s else s'.grantTo e b'
  | none => s

/-! ## Responses -/

/-- A variable-latency operation fails at its present age (R346). -/
def Engine.failOp (g : Engine) (id : Nat) (f : OpFault) : Engine := g.modOp id fun o => { o with fault := some (max 1 o.age, f) }

/-- The response of an operation's access. -/
def State.opResponse (s : State) (e : EngineId) (id : Nat) (r : Resp) : State :=
  match (s.eng e).inflight.find? fun o => o.id == id with
  | none => s
  | some o =>
    match o.act, r with
    | .rpio q, .ok v =>
      s.modEng e fun g =>
        if q.write then g.drop id
        else { (g.drop id).putResult 12 8 (BitVec.ofNat 128 (v % 2 ^ (8 * q.len))) with
               haz := g.haz.receive 12 8, came := 12 :: g.came }
    | .rpio q, r => s.modEng e (·.failOp id (pioFault o.slot q.write q.va r))
    | .mem load (p :: ps) got, .ok v =>
      let stored (g : Engine) : Engine := match load, p.spot with
        | false, .fab q => { g with dcache := lineStore g.dcache q.addr p.len p.strobe p.data }
        | _, _ => g
      (s.modEng e fun g => (stored g).modOp id fun o =>
        { o with act := .mem load ps (got ++ [if load then maskBytes p.len p.strobe v else 0]) }).serve e true 0 id
    | .mem load (p :: _) _, r => s.modEng e (·.failOp id (respFault o.unit o.opcode p.elem load p.va r))
    | _, _ => s

/-- Buffered stores stand in a data line that reaches the cache after them (R180, R183). -/
def overlay (l : List SbEnt) (c : List CLine) : List CLine :=
  l.foldl (fun c b => lineStore c (16 * b.block) 16 b.mask b.data) c
/-- A line reaches its cache, and what waits for it goes on (R180). -/
def State.fillDone (s : State) (e : EngineId) (instr : Bool) (line v : Nat) : State :=
  let l : CLine := { line := line, data := leBytes 64 v }
  let k := s.freeCtr
  let s := s.draw.modEng e fun g =>
    if instr then { g with icache := cacheFill g.icache l k } else { g with dcache := overlay g.sbuf (cacheFill g.dcache l k) }
  s.serveAll e true
/-- The exception of a far-code fetch whose line failed (R186). -/
def fetchFault (pc : Word) (r : Resp) : OpFault :=
  let va : Word := BitVec.ofNat 32 (fld pc 25 0 * 32)
  match r with
  | .part => { cause := 6, faddr := va, cdetail := BitVec.ofNat 32 (11 + 16 * accFetch) }
  | .owner c => { cause := 7, faddr := va, cdetail := BitVec.ofNat 32 c }
  | .cap c => { cause := 0x0D, faddr := va, cdetail := BitVec.ofNat 32 (c + 16 * accFetch) }
  | _ => { cause := 4, faddr := pc, cdetail := 3 }
/-- A load waits for a line of the data cache. -/
def Op.waitsLine (o : Op) (line : Nat) : Bool :=
  match o.act with
  | .mem true (p :: _) _ => (match p.spot with | .fab q => q.addr / 64 == line | _ => false)
  | _ => false
/-- A fill that ends in an error: the fetch fails; a load that waits for the line makes its accesses itself, so that it meets an
error only in the bytes that it reads (R26, R146, R186). -/
def State.fillFail (s : State) (e : EngineId) (instr : Bool) (line : Nat) (pc : Word) (r : Resp) : State :=
  if instr then s.modEng e fun g => { g with fetchErr := some (line, fetchFault pc r) }
  else
    (s.modEng e fun g =>
      { g with inflight := g.inflight.map fun o => if o.waitsLine line then { o with direct := true } else o }).serveAll e true

/-- STATUS of a captured `in` (R356). -/
def capStatus : Resp → Nat
  | .ok _ => 0
  | .cap _ => 1
  | .world => 5
  | .level => 6
  | _ => 2
/-- A captured `in` arrives: its value goes into the kind-3 word of the frame, its status into the kind-2 word (R356). -/
def State.captured (s : State) (e : EngineId) (off : Nat) (r : Resp) : State :=
  let v : Word := match r with | .ok v => BitVec.ofNat 32 v | _ => 0
  if off < 2 ^ 20 then
    let old : Word := BitVec.ofNat 32 (memNat s.mem (ownAddr e off) 4)
    let put (x : Nat) (w : Word) (s : State) : State := (s.spadAccess e (.eng e) (ownAddr e x) 4 true (fullStrobe 4) w.toNat).2
    put (off + 4) v (put off (setFld old 17 14 (capStatus r)) s)
  else
    let p := off - 2 ^ 20
    s.modEng e fun g => (g.ioPut p (setFld (g.ioGet p) 17 14 (capStatus r))).ioPut (p + 4) v

/-- An access to another package whose strobes leave more than one run of bytes: what its answer leaves to ask, and the answer to the
whole, in which the bytes of a read stand at their places (R146, log 35). A read keeps those of its runs in its data. -/
def FabOut.more (s : State) (f : FabOut) (r : Resp) : Option FabReq × Resp :=
  match r with
  | .ok v =>
    if s.isLocal f.req.addr then (none, r)
    else
      let rest := f.req.rest
      let data := if f.req.write then f.req.data else f.req.data + v * 2 ^ (8 * (firstRun f.req.strobe f.req.len).1)
      let full := if f.req.write then r else .ok data
      (if f.use != .discard && rest.strobe ≠ 0 then some { rest with data := data } else none, full)
  | _ => (none, r)
/-- The response of the outstanding transaction is taken. A drain that fails raises nothing (log 47). -/
def State.takeResponse (s : State) (e : EngineId) (f : FabOut) (r : Resp) : State :=
  let s := s.modEng e fun g => { g with fabOut := none }
  let (more, r) := f.more s r
  if let some q := more then s.modEng e fun g => { g with fabQ := (q, f.use) :: g.fabQ }
  else match f.use with
  | .op id => s.opResponse e id r
  | .fill instr line =>
    match r with
    | .ok v => s.fillDone e instr line v
    | r => s.fillFail e instr line f.req.va r
  | .drain => (s.modEng e fun g => { g with sbuf := g.sbuf.tail }).serveAll e true
  | .capture off => s.captured e off r
  | .table fa n => (s.modEng e fun g => { g with tables := g.tables ++ [(fa, n, r)] }).serveAll e false
  | .discard | .rest => s
/-- The outstanding transaction of engine e, where it has been answered and its use is of a kind. -/
def Engine.answered (g : Engine) (p : FabUse → Bool) : Option (FabOut × Resp) :=
  match g.fabOut with
  | some f => match f.resp with
    | some r => if p f.use then some (f, r) else none
    | none => none
  | none => none
def State.respondTo (s : State) (e : EngineId) (p : FabUse → Bool) : State :=
  match (s.eng e).answered p with
  | some (f, r) => s.takeResponse e f r
  | none => s
def FabUse.isCapture : FabUse → Bool
  | .capture _ => true
  | _ => false
def FabUse.isFill (instr : Bool) : FabUse → Bool
  | .fill i _ => i == instr
  | _ => false
/-- The first request of engine e is of a kind and none is outstanding. -/
def Engine.firstIs (g : Engine) (p : FabUse → Bool) : Bool :=
  g.fabOut.isNone && (match g.fabQ with | (_, u) :: _ => p u | [] => false)
/-- A whole transaction of a kind: its grant where it is the first request, and its response where that has come. -/
def State.wholeOf (s : State) (e : EngineId) (p : FabUse → Bool) : State :=
  (if (s.eng e).firstIs p then s.grant e else s).respondTo e p

end Sys2Proof.Machine
end

