-- ==== Sys2Proof/Machine/EngStep.lean ====
section
/-!
DEFINITION. Machine/EngStep.lean: one operation triggered as a bundle of its own (R35, R42, R98), the rest of a schedule cycle
(R49), and an entry (R351).
-/
namespace Sys2Proof.Machine

/-- The bundle that triggers operation n of unit u with value v, in slot 0 with an always true guard. -/
def oneOp (u n : Nat) (v : Vec) : Bundle :=
  let m : Move := { slot := 0, guard := 0, src := .imm v, dunit := u, dport := 64 + n }
  { moves := [m], priv := if m.priv then some 0 else none }

/-- The place in its program that engine g has. -/
def Engine.stayAt (h g : Engine) : Engine := { h with pc := g.pc, repLeft := g.repLeft, repResume := g.repResume }
/-- The issue of such a bundle: PC and repeat stay for an operation that is not of `cu`. -/
def State.opIssue (s : State) (e : EngineId) (b : Bundle) (ms : List Live) (hs : List Hazard) : State :=
  let g := s.eng e
  let missed := g.mispredicts b ms
  let t := s.issueAt e b ms hs
  let t := if b.cu.isSome then t else t.modEng e (·.stayAt g)
  t.issueEnd e ms missed

/-- Operation n of unit u is triggered with value v in the next schedule cycle that is free: what a bundle with this move alone
does at the present PC. Until it may issue, hold ec pass as for a bundle, one for each command. -/
def State.trigger (s : State) (e : EngineId) (u n : Nat) (v : Vec) : State :=
  if !(s.eng e).running then s
  else if (s.eng e).returning.isSome then s.returnOn e
  else
    let s := s.nearCycle e
    let t := s.openCycle e
    let (x, t) := match t.entryFirst e with | some x => (x, t) | none => t.nextBundle e (oneOp u n v)
    match x with
    | .event x => t.enter e x
    | .hold h => s.holdWith e h
    | .issue b ms hs => t.opIssue e b ms hs

/-- The schedule cycle of the last issue ends, and with it the bubbles and stalls that are due: the next bundle may issue (R49, R60).
An engine that no longer runs lets what is in flight go on. -/
def State.cyclePass (s : State) (e : EngineId) : State :=
  let g := s.eng e
  if g.running then (if g.cycleOpen then s else (s.nearCycle e).openCycle e)
  else
    if g.inflight.isEmpty then s else ((s.advance e).modEng e (·.endEc)).modEng e fun g => { g with portB := [] }

/-- The event that is due at the present entry point is taken; nothing where there is none (R345). -/
def State.entryOnly (s : State) (e : EngineId) : State :=
  if !(s.eng e).running || (s.eng e).returning.isSome then s
  else match ((s.nearCycle e).openCycle e).next e with
    | (.event v, t) => t.enter e v
    | _ => s

/-- A launch-timed bundle that waits issues once its time is reached (R236). -/
def State.launchOnly (s : State) (e : EngineId) : State :=
  let g := s.eng e
  if g.launchWait && decide (0 ≤ s.ecPast e g.launch) then s.engineEc e else s
/-- A bundle in a WAIT-UNTIL hold issues once the time is reached (R128). -/
def State.waitOnly (s : State) (e : EngineId) : State :=
  match (s.eng e).waitTo with
  | some t => if timeReached t (s.engTim e) then s.engineEc e else s
  | none => s

end Sys2Proof.Machine
end

