-- ==== Sys2Proof/Machine/DmaRun.lean ====
section
/-!
DEFINITION. Machine/DmaRun.lean: a DMA channel at work (R334, R337 to R340, R342): its requests (R318), descriptors, bursts,
hand-back, stops.
-/
namespace Sys2Proof.Machine

/-! ## Stops -/

/-- DMA_STAT.STATUS for a cause of the exception table (R340, R394). -/
def causeStatus (cause : Nat) : Nat :=
  match cause with
  | 5 => 2 | 6 => 3 | 7 => 5 | 0x0D => 6 | _ => 4
/-- DMA_STAT.STATUS for the error that ends a transaction. -/
def respStatus : Resp → Nat
  | .part | .world | .level => 3
  | .owner _ => 5
  | .cap _ => 6
  | _ => 4

/-- The DMA event at the engine of the channel's context (R340, R371). -/
def State.dmaEvent (s : State) (c : ChanId) : State := s.setLine (s.ctxEngine (chanDie c) s.dma[c].context) 4
/-- A stop: state 3 with its status and failing address, and the event (R340). -/
def State.dmaStop (s : State) (c : ChanId) (status addr : Nat) : State :=
  (s.modDma c fun x => { x with st := .stopped, status := status, faddr := addr, xfer := none, tables := [] }).dmaEvent c
/-- A channel whose pause bit is 1 pauses once its burst or descriptor fetch is complete (R342). -/
def State.dmaSettle (s : State) (c : ChanId) : State :=
  if s.dma[c].st = .running && s.dmaPaused c then s.modDma c fun x => { x with st := .paused } else s

/-! ## Requests of a channel (R318) -/

/-- A request of a channel on its way. -/
def State.dmaBeat (s : State) (c : ChanId) (q : DmaReq) : Beat :=
  { master := 100 + c.val, qos := s.dmaQos c, behind := s.stopsAt q.fa q.len q.write,
    route := s.wayTo (chanDie c) q.fa q.len, use := .channel c }
/-- The outstanding request of a channel is answered. -/
def State.dmaAnswer (s : State) (c : ChanId) (r : Resp) : State := s.fabDone (some (.channel c)) r
/-- The access of a channel's request at its target; one that has waited at a bank's port started before, under the owner code of
that time (R168). -/
def State.dmaTarget (s : State) (c : ChanId) (pl : Place) (q : DmaReq) : Resp × State :=
  let x := q.fa % 2 ^ 31
  match pl with
  | .spad e =>
    if q.atPort then s.spadStarted e (s.dmaWho c).party x q.len q.write (fullStrobe q.len) q.data
    else s.targetAccess (s.dmaWho c) pl x q.len q.write (fullStrobe q.len) q.data (some (.channel c))
  | _ => s.targetAccess (s.dmaWho c) pl x q.len q.write (fullStrobe q.len) q.data (some (.channel c))
/-- The outstanding request of a channel has reached its target, or its chain port, where a 32-byte write in a reserved slot goes on
VC1 and is complete (R306). One that an ABORT has left has its strobes clear (R328); one that loses its port at the scratchpad
waits there (R171). -/
def State.dmaReach (s : State) (c : ChanId) : State :=
  match s.dma[c].out with
  | none => s
  | some q =>
    if q.drop then s.modDma c fun x => { x with out := none }
    else if s.wayDown (chanDie c) q.fa q.len then s.dmaAnswer c (.bus 1)
    else if s.isLocal q.fa then
      match place (q.fa % 2 ^ 31) q.len with
      | none => s.dmaAnswer c (.bus 0)
      | some pl =>
        match s.dmaTarget c pl q, pl with
        | (.held, s), .spad e =>
          let s := s.modDma c fun x => { x with out := x.out.map fun q => { q with atPort := true } }
          { s with beats := s.beats ++ [{ s.dmaBeat c q with route := [placePort (.spad e)] }] }
        | (.held, s), _ => s
        | (r, s), _ => s.dmaAnswer c (s.returned (chanDie c) q.fa q.len r)
    else
      let t : Token := BitVec.ofNat 128 q.token
      match s.vc1Slot (100 + c.val) q.fa q.len q.write with
      | some p => (s.vc1Send p t q.fa q.data).dmaAnswer c (.ok 0)
      | none => match s.chainAsk (.channel c) t q.write q.fa q.len q.data with
        | (some r, s) => s.dmaAnswer c r
        | (none, s) => s
/-- A request leaves the channel. -/
def State.dmaAsk (s : State) (c : ChanId) (q : DmaReq) : State :=
  let s := s.modDma c fun x => { x with out := some q }
  match s.sendBeat (s.dmaBeat c q) with
  | (true, s) => s.dmaReach c
  | (false, s) => s

/-! ## Translation of a side (R334, R336, R338) -/

/-- What the checks of one side give: the side, a page-table entry that has still to be read, or the status of the failure. -/
inductive SideIs where
  | side (p : DmaSide) (leaf : Option TlbEnt)
  | ask (fa : Nat)
  | bad (status : Nat)
deriving DecidableEq, Repr
/-- The check of a request of n bytes that the channel makes itself: of the partition and the target in this package, else its
outbound token. -/
def State.dmaToken (s : State) (c : ChanId) (sel : TokSel) (fa n acc va : Nat) : Except Nat Nat :=
  if s.isLocal fa then
    match s.masterCheck (s.dmaWho c) (fa % 2 ^ 31) n (acc == accStore) with
    | some r => .error (respStatus r)
    | none => .ok 0
  else match s.outToken (s.ctxWorld (chanDie c) s.dma[c].context) sel fa n acc va with
    | .error x => .error (causeStatus x.cause)
    | .ok t => .ok t.toNat
def State.dmaSideOf (s : State) (c : ChanId) (va n acc : Nat) : SideIs :=
  match s.dmaAsks c va acc with
  | some fa => .ask fa
  | none => match s.dmaXlat c va n acc with
    | (.error x, _) => .bad (causeStatus x.cause)
    | (.ok (fa, sel), leaf) => match s.dmaToken c sel fa n acc va with
      | .error st => .bad st
      | .ok t => .side { va := va, fa := fa, token := t } leaf
/-- A page-table entry is read, or its read fails at once. -/
def State.dmaTable (s : State) (c : ChanId) (fa : Nat) : State :=
  match s.dmaToken c .cover fa 8 accWalk 0 with
  | .ok t => s.dmaAsk c { write := false, fa := fa, len := 8, token := t, data := 0, table := true }
  | .error st => s.modDma c fun x => { x with
      tables := x.tables ++ [(fa, 8, if st = 3 then .part else if st = 6 then .cap 2 else .bus 0)] }

/-! ## Descriptors -/

/-- The fields of a descriptor of 32 bytes (Table 11-4). -/
def descOf (v : Nat) : Desc :=
  let f (hi lo : Nat) : Nat := v / 2 ^ lo % 2 ^ (hi + 1 - lo)
  { ctx := f 5 0, last := f 7 7 == 1, qos := f 11 8, irq := f 12 12 == 1, hb := f 13 13 == 1, hbBank := f 17 14,
    hbCode := f 21 18, len := f 55 32, src := f 103 64, dst := f 167 128, next := f 223 192 }
/-- A reserved field of a descriptor is not 0, NEXT is not aligned, or an address has high bits in a context without PHYS
(R337). -/
def descBad (v : Nat) (phys : Bool) : Bool :=
  let f (hi lo : Nat) : Nat := v / 2 ^ lo % 2 ^ (hi + 1 - lo)
  f 6 6 ≠ 0 || f 31 22 ≠ 0 || f 63 56 ≠ 0 || f 127 104 ≠ 0 || f 191 168 ≠ 0 || f 255 224 ≠ 0 ||
    (f 7 7 = 0 && f 196 192 ≠ 0) || (!phys && (f 103 96 ≠ 0 || f 167 160 ≠ 0))

/-- A descriptor has been read (R337). -/
def State.dmaDescribed (s : State) (c : ChanId) (v : Nat) : State :=
  let x := s.dma[c]
  let d := descOf v
  let s := s.modDma c fun x => { x with xfer := none }
  if d.ctx ≠ x.ctx then s.dmaStop c 7 x.cur.toNat
  else if descBad v (s.ctxPhys (chanDie c) x.ctx) then s.dmaStop c 9 x.cur.toNat
  else (s.modDma c fun x => { x with now := some d, progress := 0 }).dmaSettle c

/-- The fetch of the descriptor at DMA_CUR through the channel's context begins (R337). -/
def State.dmaFetchStart (s : State) (c : ChanId) : State :=
  let a := s.dma[c].cur.toNat
  match s.dmaSideOf c a 32 accLoad with
  | .ask fa => s.dmaTable c fa
  | .bad st => s.dmaStop c st a
  | .side p leaf => (s.keepDma c leaf).modDma c fun x => { x with
      xfer := some { stage := .fetch, src := p, dst := p, len := 32, moved := 0, data := 0 }, tables := [] }

/-! ## Bursts -/

/-- Hand-back of a bank by the channel as code 0x1 (R339): a refusal sets HBERR. -/
def State.dmaHandBack (s : State) (c : ChanId) (d : Desc) : State :=
  let e := s.ctxEngine (chanDie c) d.ctx
  let old := s.ioGet e 0x890
  let s0 := s.ioMod e 0x890 (setBit · 8 false)
  let s1 := s0.bankGive e (at32 4 d.hbCode ||| at32 0 d.hbBank) ((s.eng e).owner d.hbBank == 1 && decide (chanDie c = engDie e)) false
  let refused := bitOf (s1.ioGet e 0x890) 8
  let s2 := s1.ioMod e 0x890 fun v => setBit v 8 (refused || bitOf old 8)
  if refused then s2.modDma c fun x => { x with hbErr := true } else s2

/-- The descriptor's bytes are moved: hand-back, interrupt, then the next descriptor or the end of the chain. -/
def State.dmaComplete (s : State) (c : ChanId) (d : Desc) : State :=
  let s := if d.hb then s.dmaHandBack c d else s
  let s := if d.irq then s.dmaEvent c else s
  if d.last then s.modDma c fun x => { x with st := .idle, status := 1, now := none, xfer := none }
  else (s.modDma c fun x =>
    { x with cur := BitVec.ofNat 32 d.next, now := none, progress := 0, xfer := none }).dmaSettle c

/-- Length of the next burst: to the first 512-byte boundary of either side, or LEN (R338). -/
def burstLen (d : Desc) (progress : Nat) : Nat :=
  min (d.len - progress) (min (512 - (d.src + progress) % 512) (512 - (d.dst + progress) % 512))

/-- A burst has been written: DMA_PROGRESS advances. -/
def State.dmaAdvance (s : State) (c : ChanId) (d : Desc) (n : Nat) : State :=
  let s := s.modDma c fun x => { x with progress := x.progress + n, xfer := none }
  if d.len ≤ s.dma[c].progress then s.dmaComplete c d else s.dmaSettle c

/-- A burst begins: both sides are translated and checked before a byte of it is read (R338, R340). A descriptor that moves
nothing is complete. -/
def State.dmaBurstStart (s : State) (c : ChanId) (d : Desc) : State :=
  let x := s.dma[c]
  let n := burstLen d x.progress
  let a := d.src + x.progress
  let b := d.dst + x.progress
  if d.len ≤ x.progress then s.dmaComplete c d
  else match s.dmaSideOf c a n accLoad with
    | .ask fa => s.dmaTable c fa
    | .bad st => s.dmaStop c st a
    | .side src la =>
      let s := s.keepDma c la
      match s.dmaSideOf c b n accStore with
      | .ask fa => s.dmaTable c fa
      | .bad st => s.dmaStop c st b
      | .side dst lb => (s.keepDma c lb).modDma c fun x => { x with
          xfer := some { stage := .read, src := src, dst := dst, len := n, moved := 0, data := 0 }, tables := [] }

/-! ## Progress -/

/-- The next request of a transfer: over the chain at most 256 bytes each (R303). -/
def State.dmaPiece (s : State) (y : DmaXfer) : DmaReq :=
  let p := if y.stage = .write then y.dst else y.src
  { write := decide (y.stage = .write), fa := p.fa + y.moved,
    len := if s.isLocal p.fa then y.len - y.moved else min 256 (y.len - y.moved), token := p.token,
    data := y.data / 2 ^ (8 * y.moved), table := false }
/-- The answer v to a request of a transfer of which n bytes were asked for. -/
def State.dmaMoved (s : State) (c : ChanId) (y : DmaXfer) (n v : Nat) : State :=
  let data := if y.stage = .write then y.data else y.data + v % 2 ^ (8 * n) * 2 ^ (8 * y.moved)
  if y.moved + n < y.len then s.modDma c fun x => { x with xfer := some { y with moved := y.moved + n, data := data } }
  else match y.stage, s.dma[c].now with
    | .fetch, _ => s.dmaDescribed c data
    | .read, _ => s.modDma c fun x => { x with xfer := some { y with stage := .write, moved := 0, data := data } }
    | .write, some d => s.dmaAdvance c d y.len
    | .write, none => s
/-- The answer to the outstanding request is taken. -/
def State.dmaTake (s : State) (c : ChanId) (q : DmaReq) (r : Resp) : State :=
  let s := s.modDma c fun x => { x with out := none }
  if q.table then s.modDma c fun x => { x with tables := x.tables ++ [(q.fa, q.len, r)] }
  else match s.dma[c].xfer, r with
    | some y, .ok v => s.dmaMoved c y q.len v
    | some y, r => s.dmaStop c (respStatus r) (if y.stage = .write then y.dst.va else y.src.va)
    | none, _ => s
/-- A running channel without an outstanding request makes the next one. -/
def State.dmaNext (s : State) (c : ChanId) : State :=
  match s.dma[c].xfer, s.dma[c].now with
  | some y, _ => s.dmaAsk c (s.dmaPiece y)
  | none, some d => s.dmaBurstStart c d
  | none, none => s.dmaFetchStart c

/-- The channel goes on until it waits for an answer or for the next fc (R318), or until its descriptor fetch or burst has ended. -/
def dmaGoOn : Nat → State → ChanId → State
  | 0, s, _ => s
  | k + 1, s, c =>
    let x := s.dma[c]
    match x.out with
    | some q =>
      (match q.resp with
       | none => s
       | some r =>
         let s := s.dmaTake c q r
         if !q.table && s.dma[c].xfer.isNone then s else dmaGoOn k s c)
    | none =>
      if x.st ≠ .running || decide (s.fc < x.next) then s
      else
        let t := s.dmaNext c
        if t.dma[c].st ≠ .running || (t.dma[c].now ≠ x.now) then t else dmaGoOn k t c
/-- The channel's fetch or burst as far as it can go now: at most four page-table entries and two requests a stage. -/
def State.dmaRun (s : State) (c : ChanId) (fetch : Bool) : State :=
  if s.dma[c].now.isNone = fetch then dmaGoOn 20 s c else s

/-- DESCRIPTOR_FETCH. -/
def execDescriptorFetch (c : ChanId) (s : State) : Out := .next (s.dmaRun c true)
/-- DMA_BURST. -/
def execDmaBurst (c : ChanId) (s : State) : Out := .next (s.dmaRun c false)

end Sys2Proof.Machine
end

