-- ==== Sys2Proof/Machine/Routing.lean ====
section
/-!
DEFINITION. Machine/Routing.lean: the front-end routing units (R292, R293), the sender side of lane training (R277, R279,
R280), and the die-to-die links (R324, R327).
-/
namespace Sys2Proof.Machine

/-! ## Routed groups -/

/-- A group reaches its destination (R293): pushed into the queue, written to the hit input, or to Pool. -/
def State.groupReach (s : State) (g : Group) : State :=
  match g.kind with
  | 1 =>
    match s.physOf g.target with
    | some e =>
      if s.engReady e then (s.iqSend e ⟨g.queue % 16, by omega⟩ (words8 g.data) none).1 else s
    | none => s
  | 2 =>
    if h : g.target < 6 then
      (s.targetAccess innerWho (.hit ⟨g.target, h⟩) (0x14400000 + g.target * 0x800000) 32 true (fullStrobe 32) g.data.toNat
        none).2
    else s
  | _ => (s.localAccess innerWho g.target 32 true (fullStrobe 32) g.data.toNat none).2

/-- The routing unit sends the oldest of its groups that its first target port grants in the present fc (R292, R319); a group
without a destination, or behind a link that is down (R327), is dropped. -/
def routeFirst : List Group → State → Fin 2 → State
  | [], s, _ => s
  | g :: l, s, n =>
    let without (s : State) : State := { s with groups := s.groups.set n (s.groups[n].erase g) }
    match s.groupBeat n g with
    | none => without s
    | some b =>
      if !(s.groupMay n g) then routeFirst l s n
      else if (s.groupPort g).any fun p => s.routeDown (newtDie n) p.1 then without s
      else match goOn b.route s b with
        | ({ route := [], .. }, s') => (without s').groupReach g
        | (b', s') =>
          if b'.route.length = b.route.length then routeFirst l s n
          else without { s' with beats := s'.beats ++ [b'] }
def State.routeSend (s : State) (n : Fin 2) : State := routeFirst s.groups[n] s n

/-! ## Lane training (Table 10-4) -/

/-- Bit lock: CDR, or a retrain that runs, goes on to the code-word boundary. -/
def Lane.bitLock (x : Lane) : Lane :=
  if x.st = .cdr || (x.st = .retrain && !x.idleWait) then { x with st := .block } else x
/-- The boundary is found: ALIGN on a fixed-latency quad, else HELLO. -/
def Lane.boundary (x : Lane) (fixed : Bool) : Lane :=
  if x.st = .block then (if fixed then { x with st := .align } else x.toHello) else x
/-- The recovered clock is in phase. -/
def Lane.aligned (x : Lane) : Lane := if x.st = .align then x.toHello else x
/-- 32 invalid sync headers within 1,024 code words. -/
def Lane.syncLoss (x : Lane) : Lane := if x.st = .active then x.retrain else x
/-- The 10 ms after a failed retrain are over. -/
def Lane.waitOver (x : Lane) : Lane := if x.st = .retrain then { x with idleWait := false } else x
/-- A lane stays in HELLO because no version qualifies: that is no failed retrain (R280). -/
def State.noVersion (s : State) (l : LaneId) : Bool :=
  let x := s.lanes[l]
  x.st = .hello && x.helloSeen && s.chooseVersion (s.laneCfg l) (x.fevers % 8) == 0
/-- A lane that has been ACTIVE since EN was set trains again (R282). -/
def State.retraining (s : State) (l : LaneId) : Bool :=
  let x := s.lanes[l]
  x.wasUp && !(s.noVersion l) && (match x.st with
    | .cdr | .block | .align | .hello => true
    | .retrain => !x.idleWait
    | _ => false)

/-- Word 1 of the HELLO that the device sends (R279): every version and discipline, HEARD, and its choice (R280). -/
def State.helloWord (s : State) (l : LaneId) : Word :=
  let x := s.lanes[l]
  let ver := if x.helloSeen then s.chooseVersion (s.laneCfg l) (x.fevers % 8) else 0
  at32 24 ver ||| at32 16 (b2n x.helloSeen) ||| at32 8 3 ||| at32 0 7

/-- The HELLO block that the device sends: the header word, word 1, and 62 words of zeros, with KIND HELLO and SEQ 0 (R275, R276,
R279). -/
def helloBlock (w : Word) : FeBlock :=
  let b : FeBlock := { words := 0x4C535548#32 :: w :: List.replicate 62 0, trailer := 0x100000000000#64 }
  { b with trailer := b.trailer ||| (blockCrc b).setWidth 64 }

/-- A replay lane in HELLO sends a HELLO on its driven transmitter (Table 10-4, QUAD_CFG.TXEN). -/
def State.helloSend (s : State) (l : LaneId) : State :=
  let c := s.laneCfg l
  if s.lanes[l].st = .hello && qReplay c && qTX c then s.laneHello l (helloBlock (s.helloWord l)) else s

/-- A NAK timer expires: a number that is not held and not released is requested again (R285); a retired lane, whose transmitter
and receiver are off (Table 10-4), requests none. -/
def State.nakExpire (s : State) (l : LaneId) (q : BitVec 12) : State :=
  let x := s.lanes[l]
  if x.timers.any (fun p => p.1 = q && decide (p.2 ≤ s.fc)) then
    let s := s.modLane l fun y => { y with timers := y.timers.filter fun p => p.1 ≠ q }
    if x.st = .retired || x.held.any (fun h => h.seq = q) || (x.wasLocked && seqDiff q x.ne < 0) then s else s.laneRequest l q
  else s

/-- The retirement map is written to the calibration store (R298, R299). -/
def State.laneMapSave (s : State) : State :=
  if s.mapStale then
    { s with cal := memWrite s.cal 0x200 18 (fullStrobe 18) s.chanMask.toNat, mapStale := false }
  else s

/-! ## Die-to-die links -/

/-- A link goes down: the die-link interrupt (R327, R371). -/
def State.d2dFail (s : State) (d : DieId) (p : Fin 6) : State :=
  (s.modDie d fun x => { x with d2d := x.d2d.set p { x.d2d[p] with down := true, waiting := false, resends := 0 } }).lineDie d 2

/-- Whether a die has die-to-die port p (R20). -/
def hasD2d (d : DieId) (p : Fin 6) : Bool := !(isGecko d) || decide (p.val < 4)

/-- A good block: 256 bytes under their CRC-32C (R324). That the CRC covers the 256 bytes and not the sequence number is a DESIGN
CHOICE (log 92). -/
def d2dGood (b : D2dBlk) : Bool := b.data.length == 256 && crc32c b.data == b.crc

/-- A block arrives (R324): a good one in sequence is acknowledged; a bad one is discarded and re-sent, and so is every later
one until its good copy; 8 re-sends without one take the link down (R327). The receiving die counts the re-sends it asks for
(log 34). -/
def State.d2dBlock (s : State) (d : DieId) (p : Fin 6) (seq : Nat) (b : D2dBlk) : State :=
  let x := (s.die d).d2d[p]
  let put (y : D2d) (t : State) : State := t.modDie d fun z => { z with d2d := z.d2d.set p y }
  if !(hasD2d d p) || x.down || decide (seq < x.expect) then s
  else if x.expect < seq then (if x.waiting then s.dMod d 0x7510 (bumpFld · 31 16 1) else s)
  else if d2dGood b then
    let s := if x.waiting then s.lateBeats d p else s
    put { x with expect := x.expect + 1, waiting := false, resends := 0, acked := x.acked + 1 } s
  else if 8 ≤ x.resends then s.d2dFail d p
  else (put { x with waiting := true, resends := x.resends + 1 } s).dMod d 0x7510 (bumpFld · 31 16 1)

/-- The link loses lock (R327). -/
def State.d2dLost (s : State) (d : DieId) (p : Fin 6) : State :=
  if hasD2d d p && !((s.die d).d2d[p].down) then s.d2dFail d p else s
/-- A down link has retrained (R327). -/
def State.d2dUp (s : State) (d : DieId) (p : Fin 6) : State :=
  if hasD2d d p && (s.die d).d2d[p].down then
    s.modDie d fun x => { x with d2d := x.d2d.set p { x.d2d[p] with down := false, waiting := false, resends := 0 } }
  else s

end Sys2Proof.Machine
end

