-- ==== Sys2Proof/Machine/Fabric.lean ====
section
/-!
DEFINITION. Machine/Fabric.lean: the grant of a target port among every request that waits there, and the request's way on
(R292, R317 to R322).
-/
namespace Sys2Proof.Machine

/-- A routed group or a push of a reduction channel whose route a down link is part of ends in a bus error, which nobody takes: it
is lost (R327). -/
def State.pushLost (s : State) (b : Beat) : Bool :=
  match b.use with
  | .group g => (s.groupPort g).any fun p => s.routeDown (newtDie ⟨(b.master - 0xB0) % 2, by omega⟩) p.1
  | .push e _ _ road => !road && s.routeDown newt0 (engDie e)
  | _ => false
/-- A request that has passed every target port makes its access. -/
def State.beatReach (s : State) (b : Beat) : State :=
  if s.pushLost b then s else
  match b.use with
  | .engine e => s.fabReach e
  | .channel c => s.dmaReach c
  | .group g => s.groupReach g
  | .push e q ws road => s.pushReach e q ws road
  | .host i a wr n data w root => s.hostReach i a wr n data w root
  | .chain p k w => s.chainReach p k w
  | .forward _ k => s.chainForward k

/-- A request that a port has granted leaves the place where it waited: the fabric, its engine, or its routing unit. -/
def State.takeBeat (s : State) (b : Beat) : State :=
  if s.beats.contains b then { s with beats := s.beats.erase b }
  else match b.use with
    | .engine e => s.modEng e (·.takeFirst)
    | .group g => { s with groups := s.groups.map fun l => l.erase g }
    | _ => s

/-- Target port t of die d grants a request in the present fc (R319), which goes on as far as it can. -/
def State.fabGrant (s : State) (d : DieId) (t : Nat) : State :=
  match s.portPick d t [] with
  | (some (b, r), s) =>
    let s := s.takeBeat b
    let b' := s.leave d t b r
    match goOn b'.route s b' with
    | ({ route := [], .. }, s) => s.beatReach b
    | (b', s) => { s with beats := s.beats ++ [b'] }
  | (none, s) => s

end Sys2Proof.Machine
end

