-- ==== Sys2Proof/Machine/CmdEngine.lean ====
section
/-!
DEFINITION. Machine/CmdEngine.lean: what an engine and its fabric port do on their own: issue, deliveries, entries (R42, R49,
R128, R236, R351), transactions, cache fills and drains (R180, R182, R317, R318, R356).
-/
namespace Sys2Proof.Machine

/-- BUNDLE_ISSUE: the next ec of an engine. -/
def execBundleIssue (e : EngineId) (s : State) : Out := .next (s.engineEc e)
/-- LAUNCH_ISSUE. -/
def execLaunchIssue (e : EngineId) (s : State) : Out := .next (s.launchOnly e)
/-- WAIT_UNTIL_END. -/
def execWaitUntilEnd (e : EngineId) (s : State) : Out := .next (s.waitOnly e)
/-- RESULT_DELIVERY: the schedule cycle in which results fall due. -/
def execResultDelivery (e : EngineId) (s : State) : Out := .next (s.cyclePass e)
/-- EXCEPTION_ENTRY. -/
def execExceptionEntry (e : EngineId) (s : State) : Out := .next (s.entryOnly e)
/-- FABRIC_TRANSACTION at a target port of a die. -/
def execFabricTransaction (d : DieId) (port : Nat) (s : State) : Out := .next (s.fabGrant d port)
/-- FABRIC_RESPONSE of an engine's transaction, but for a captured `in`. -/
def execFabricResponse (e : EngineId) (s : State) : Out := .next (s.respondTo e fun u => !u.isCapture)
/-- CAPWAIT_RESPONSE. -/
def execCapwaitResponse (e : EngineId) (s : State) : Out := .next (s.respondTo e (·.isCapture))
/-- CACHE_FILL of the instruction or the data cache. -/
def execCacheFill (e : EngineId) (instr : Bool) (s : State) : Out := .next (s.wholeOf e (·.isFill instr))
/-- STORE_BUFFER_DRAIN. -/
def execStoreBufferDrain (e : EngineId) (s : State) : Out := .next (s.wholeOf e (·.isDrain))

end Sys2Proof.Machine
end

