-- ==== Sys2Proof/Machine/CmdFox.lean ====
section
/-!
DEFINITION. Machine/CmdFox.lean: commands of the pattern associators (R254 to R270).
-/
namespace Sys2Proof.Machine

/-- HIT_INPUT_WRITE: 32 bytes to the hit input (R257). -/
def execHitInputWrite (m : Master) (g : GeckoId) (ws : W256) (strobe : Word) (s : State) : Out :=
  .next (s.cmdStore m (0x14400000 + g.val * 0x800000) 32 strobe.toNat ws.toNat)
/-- HIT_WORD: the front word is a hit and is applied. -/
def execHitWord (g : GeckoId) (s : State) : Out := .next (s.foxApply g 1 (foxHit g))
/-- END_MARKER: the front word is an end marker and closes the event. -/
def execEndMarker (g : GeckoId) (s : State) : Out := .next (s.foxApply g 2 (foxEnd g))
/-- NULL_WORD: the front word is null. -/
def execNullWord (g : GeckoId) (s : State) : Out := .next (s.foxApply g 0 fun _ t => t)
/-- INVALID_WORD: the front word is invalid and is discarded. -/
def execInvalidWord (g : GeckoId) (s : State) : Out := .next (s.foxApply g 3 fun _ t => t.foxFlag g 29)
/-- ROAD_OUTPUT: the next output word is formed. -/
def execRoadOutput (g : GeckoId) (s : State) : Out := .next (s.foxForm g)
/-- OUTPUT_HOLD_RELEASE: the sink accepts again. -/
def execOutputHoldRelease (g : GeckoId) (s : State) : Out := .next (s.foxRelease g)
/-- PATTERN_WRITE: a record, under its byte strobes (R255). -/
def execPatternWrite (m : Master) (g : GeckoId) (p : Fin 32768) (ws : W256) (strobe : Word) (s : State) : Out :=
  .next (s.cmdStore m (patAddr g p.val) 32 strobe.toNat ws.toNat)
/-- SEGMENT_CHECK_DONE. -/
def execSegmentCheckDone (g : GeckoId) (i : Fin 8) (s : State) : Out := .next (s.segCheckDone g i)
/-- PATTERN_SCRUB. -/
def execPatternScrub (g : GeckoId) (s : State) : Out := .next (s.foxScrub g)

end Sys2Proof.Machine
end

