-- ==== Sys2Proof/Machine/CmdLanes.lean ====
section
/-!
DEFINITION. Machine/CmdLanes.lean: events of front-end lanes (Table 10-4, R282, R285 to R288, R292, R299) and of die-to-die
links (R324, R327).
-/
namespace Sys2Proof.Machine

/-- LANE_BIT_LOCK. -/
def execLaneBitLock (l : LaneId) (s : State) : Out := .next (s.modLane l (·.bitLock))
/-- BOUNDARY_FOUND. -/
def execBoundaryFound (l : LaneId) (s : State) : Out := .next (s.modLane l (·.boundary (qFixed (s.laneCfg l))))
/-- LANE_ALIGNED. -/
def execLaneAligned (l : LaneId) (s : State) : Out := .next (s.modLane l (·.aligned))
/-- HELLO: a block captured in HELLO or ACTIVE. -/
def execHello (l : LaneId) (b : FeBlock) (s : State) : Out := .next (s.capture l b)
/-- HELLO_TRANSMIT. -/
def execHelloTransmit (l : LaneId) (s : State) : Out := .next (s.helloSend l)
/-- SYNC_HEADER_LOSS. -/
def execSyncHeaderLoss (l : LaneId) (s : State) : Out := .next (s.modLane l (·.syncLoss))
/-- FAILED_RETRAIN: a retrain has not reached ACTIVE within 2 ms. -/
def execFailedRetrain (l : LaneId) (s : State) : Out := .next (if s.retraining l then s.laneFail l else s)
/-- RETRAIN_WAIT_EXPIRY. -/
def execRetrainWaitExpiry (l : LaneId) (s : State) : Out := .next (s.modLane l (·.waitOver))
/-- DATA_BLOCK. -/
def execDataBlock (l : LaneId) (b : FeBlock) (s : State) : Out := .next (s.capture l b)
/-- NAK_TIMER_EXPIRY. -/
def execNakTimerExpiry (l : LaneId) (q : BitVec 12) (s : State) : Out := .next (s.nakExpire l q)
/-- RELEASE_POINT. -/
def execReleasePoint (l : LaneId) (s : State) : Out := .next (s.releasePoint l)
/-- ROUTED_GROUP_SEND. -/
def execRoutedGroupSend (n : Fin 2) (s : State) : Out := .next (s.routeSend n)
/-- LANE_MAP_WRITE. -/
def execLaneMapWrite (s : State) : Out := .next s.laneMapSave

/-- D2D_BLOCK. -/
def execD2dBlock (d : DieId) (p : Fin 6) (seq : Nat) (b : D2dBlk) (s : State) : Out := .next (s.d2dBlock d p seq b)
/-- D2D_LOCK_LOSS. -/
def execD2dLockLoss (d : DieId) (p : Fin 6) (s : State) : Out := .next (s.d2dLost d p)
/-- D2D_RETRAIN_DONE. -/
def execD2dRetrainDone (d : DieId) (p : Fin 6) (s : State) : Out := .next (s.d2dUp d p)
/-- D2D_RETRY: the link begins another attempt and stays down until it has retrained. -/
def execD2dRetry (_d : DieId) (_p : Fin 6) (s : State) : Out := .next s

end Sys2Proof.Machine
end

