-- ==== Sys2Proof/Machine/CmdMemory.lean ====
section
/-!
DEFINITION. Machine/CmdMemory.lean: events of memories and of an engine's units that no bundle makes: error trackers and
retirement records (R187, R189), Skink (R193 to R195), page walks (R330), the instruction-load buffer (R179) and the power of
the vector unit (R155, R156).
-/
namespace Sys2Proof.Machine

/-- ECC_TRACKER_EXPIRY. -/
def execEccTrackerExpiry (d : DieId) (bank word : Nat) (s : State) : Out := .next (s.trackExpire d bank word)
/-- RETIREMENT_RECORD: the new retirements of the die are in the calibration store; the place there is not stated, so they are
held with the retired words. -/
def execRetirementRecord (d : DieId) (s : State) : Out := .next (s.modDie d fun x => { x with toRecord := [] })
/-- SKINK_BORROW. -/
def execSkinkBorrow (g : GeckoId) (j : Fin 16) (bank : Fin 16) (s : State) : Out := .next (s.skinkBorrow g j bank)
/-- SKINK_WORD_TEST. -/
def execSkinkWordTest (g : GeckoId) (s : State) : Out := .next (s.skinkTest g)

/-- A leaf that grants one of these accesses, each of a kind and a level. -/
def TlbEnt.keptAny (t : TlbEnt) (accs : List (Nat × Bool)) : Option TlbEnt :=
  accs.findSome? fun a => t.kept a.1 a.2
/-- The kind and level of the engine's access that waits for the walk of a page: that of an operation, or the fetch of far code. -/
def Engine.waitingAcc (g : Engine) (vpn : Nat) : Option (Nat × Bool) :=
  match g.inflight.find? fun o => (match o.act with | .mem _ ps _ => ps.any fun p => p.unknown && p.va.toNat / 4096 == vpn | _ => false) with
  | some o => some (accOf o.loads, o.sup)
  | none => if bitOf g.pc 31 && fld g.pc 25 0 * 32 / 4096 == vpn then some (accFetch, g.sup) else none
/-- The accesses for which a leaf is kept: the one that waits, or any at the engine's level where none does, since the command then
names none (R333; log 87). -/
def Engine.walkAccs (g : Engine) (vpn : Nat) : List (Nat × Bool) :=
  match g.waitingAcc vpn with
  | some a => [a]
  | none => [(accLoad, g.sup), (accStore, g.sup), (accFetch, g.sup)]
/-- Those of a channel: a load of the descriptor or of the source, a store to the destination; it fetches no code. -/
def Dma.walkAccs (x : Dma) (vpn : Nat) : List (Nat × Bool) :=
  let l := match x.now with
    | none => if x.cur.toNat / 4096 == vpn then [accLoad] else []
    | some d => (if (d.src + x.progress) / 4096 == vpn then [accLoad] else []) ++
        (if (d.dst + x.progress) / 4096 == vpn then [accStore] else [])
  (if l.isEmpty then [accLoad, accStore] else l).map fun acc => (acc, false)
/-- A walk by an engine goes one step on: the next entry is asked for, the leaf is kept, or the page is marked as one whose access
faults (R330, R333). -/
def State.walkStep (s : State) (e : EngineId) (va : Nat) : State :=
  let g := s.eng e
  if !(g.needsWalk va) then s
  else match walk g.tables g.ptb va accLoad with
    | .ask fa => s.askTable e .cover fa 8
    | .leaf t => match t.keptAny (g.walkAccs (va / 4096)) with
      | some t => s.modEng e fun g => { g.tlbFill t with tables := [] }
      | none => s.modEng e fun g => { g with walked := some (va / 4096) }
    | .fault _ => s.modEng e fun g => { g with walked := some (va / 4096) }
/-- The same by a channel that has no request out. -/
def State.dmaWalkStep (s : State) (c : ChanId) (va : Nat) : State :=
  let d := chanDie c
  let x := s.dma[c]
  if s.ctxPhys d x.context || s.ctxWorld d x.context = .T || (s.iommuHit c va).isSome then s
  else match walk x.tables (s.dmaPtb c) va accLoad with
    | .ask fa => if x.out.isNone then s.dmaTable c fa else s
    | .leaf t => (s.keepDma c (t.keptAny (x.walkAccs (va / 4096)))).modDma c fun x => { x with tables := [] }
    | .fault _ => s.modDma c fun x => { x with tables := [] }
/-- A walk ahead of an access that waits for it. -/
def State.pageWalk (s : State) (w : Walker) (va : Nat) : State :=
  match w with
  | .engine e => s.walkStep e va
  | .channel c => match s.dma[c].out with
    | some { table := true, resp := some r, fa := fa, len := n, .. } =>
      (s.modDma c fun x => { x with out := none, tables := x.tables ++ [(fa, n, r)] }).dmaWalkStep c va
    | _ => s.dmaWalkStep c va
/-- PAGE_WALK. -/
def execPageWalk (w : Walker) (va : Word) (s : State) : Out := .next (s.pageWalk w va.toNat)

/-- ILDATA_BUFFER_WRITE: words that wait for a half are written in an ec in which fetch does not use it (R179). -/
def execIldataBufferWrite (e : EngineId) (s : State) : Out := .next (s.ilFlush e fun g => !(g.fetches g.ilHalf))

/-- The vector unit powers down once its idle count has reached 4,096 (R155, R159), unless an acknowledged change leads out of the
throughput modes (R157, R249). A count that has gone past that number while the unit slept or woke is due no more. Where PINON has
kept the unit on when the count reached it, R155 does not say when it goes down once PINON is 0: here at any time from then on
(DESIGN CHOICE, log 88). -/
def Engine.vecDown (g : Engine) : Engine :=
  if throughput g.mode && !g.leaving && g.vpwr = .on && g.vdue && !(bitOf (g.effIo 0x840) 0) then
    { g.ioPut 0x840 (bumpFld (g.ioGet 0x840) 31 16 1) with vpwr := .asleep, vdue := false }
  else g
/-- VECTOR_POWER_DOWN. -/
def execVectorPowerDown (e : EngineId) (s : State) : Out := .next (s.modEng e (·.vecDown))
/-- VECTOR_WAKE_DONE: 96 ec after the wake began. -/
def execVectorWakeDone (e : EngineId) (s : State) : Out :=
  .next (s.modEng e fun g => if g.vpwr = .waking && g.vwake == 0 then { g with vpwr := .on } else g)

end Sys2Proof.Machine
end

