-- ==== Sys2Proof/Machine/CmdPackage.lean ====
section
/-!
DEFINITION. Machine/CmdPackage.lean: commands of the package as a whole: reset and boot (R14, R423, R425, R440, R442), the pins,
temperature (R430, R431), JTAG (R449), I2C (R450) and the PCIe link (R424, R447).
-/
namespace Sys2Proof.Machine

/-! ## Reset and boot -/

/-- POWER_ON_RESET. -/
def execPowerOnReset (s : State) : Out := .next (s.powerOn false)
/-- BRING_UP. -/
def execBringUp (straps : Fin 8) (s : State) : Out := .next (s.bringUp straps)
/-- SUPPLY_MONITOR_RESET. -/
def execSupplyMonitorReset (s : State) : Out := .next (s.powerOn true)
/-- PERST. -/
def execPerst (s : State) : Out := .next s.perstFall
/-- PERST_RELEASE. -/
def execPerstRelease (s : State) : Out := .next s.perstRise
/-- HALT. -/
def execHalt (low : Bool) (s : State) : Out := .next (s.haltPin low)
/-- KEEPER_BOOT. -/
def execKeeperBoot (sfdp : Bool) (primary backup : List Byte) (s : State) : Out := .next (s.keeperBoot sfdp primary backup)
/-- BOOT_MBOX_WRITE. -/
def execBootMboxWrite (m : Master) (v : Word) (s : State) : Out := .next (s.cmdWrite m (.die newt0 0x7F24) v)

/-! ## Temperature -/

/-- THERMAL_SAMPLE. -/
def execThermalSample (codes : Dword) (s : State) : Out := .next (s.thermSample codes)
/-- THERMAL_TRIP. -/
def execThermalTrip (codes : Dword) (s : State) : Out := .next (s.thermTrip codes)
/-- TRIP_CLEAR: a write of 1 to THERM_STAT.TRIP. -/
def execTripClear (m : Master) (s : State) : Out := .next (s.cmdWrite m (.die newt0 0x7F08) 2#32)

/-! ## I2C target (R450) -/

/-- Whether the I2C target reads a port. -/
def i2cReads (p : Nat) : Bool :=
  (within p 0x7E00 0x7E24 && p % 4 == 0) || p == 0x7F00 || p == 0x7F04 || p == 0x7F08 || p == 0x7F20 || p == 0x7F28 || p == 0x5004
/-- The register that the index names, as the I2C target reads it. -/
def State.i2cValue (s : State) (p : Nat) : Word :=
  if i2cReads p then (s.dieLive { world := .H, sup := true } newt0 p).getD (s.n0 p) else 0
/-- The target acknowledges a 7-bit address: 0x58 with the straps; the general call is another address and is ignored. A command of
the table is a transfer to this address. -/
def State.i2cAddress (s : State) : BitVec 7 := 0x58#7 + BitVec.ofNat 7 s.pins.i2cA.val
/-- The first bytes of a write that the target acknowledges: the index's two, not a third. -/
def i2cAcks (k : Nat) : Bool := decide (k < 2)
/-- I2C_INDEX_WRITE. -/
def execI2cIndexWrite (index : BitVec 16) (s : State) : Out :=
  .next (if bitOf (s.n0 0x7E00) 0 then { s with i2cIndex := index } else s)
/-- I2C_READ: 4 bytes, then the index advances by 4. -/
def execI2cRead (s : State) : Out :=
  .next (if bitOf (s.n0 0x7E00) 0 then { s with i2cData := s.i2cValue s.i2cIndex.toNat, i2cIndex := s.i2cIndex + 4 } else s)

/-! ## JTAG (R449, R434) -/

/-- Boundary cell of DEC_OUTk and of DEC_INk, in row-major ball order. -/
def cellOut (k : Nat) : Nat := if k < 16 then 2 + k else 25 + (k - 16)
def cellIn (k : Nat) : Nat := 51 + k

/-- Whether an instruction gives the DEC_OUT pairs to the boundary register: EXTEST, CLAMP, HIGHZ. -/
def Tap.drives (t : Tap) : Bool := t.ir = 0x00 || t.ir = 0x03 || t.ir = 0x04
/-- Whether one gives every other output to it: EXTEST, CLAMP; HIGHZ turns them off (IEEE 1149.1). -/
def Tap.tests (t : Tap) : Bool := t.ir = 0x00 || t.ir = 0x03
def Tap.highZ (t : Tap) : Bool := t.ir = 0x04

/-- What an output ball shows: nothing drives it, or a level (Table 15-4). -/
inductive Pad where
  | z | low | high
deriving DecidableEq, Repr
/-- A push-pull output, and an open-drain one, which only pulls low. -/
def Pad.push (b : Bool) : Pad := if b then .high else .low
def Pad.drain (b : Bool) : Pad := if b then .z else .low
/-- The DEC_OUTk pair: high impedance in reset, where its resistors make its receiver read veto (R435, R437). -/
def State.decPad (s : State) (k : Nat) : Pad :=
  if s.inReset then .z else .push (if s.tap.drives then bitOf s.tap.boundary (cellOut k) else s.decPin k)
/-- READY: low in reset (R436, R438). -/
def State.readyPad (s : State) : Pad :=
  if s.inReset then .low
  else if s.tap.highZ then .z
  else .drain (if s.tap.tests then bitOf s.tap.boundary 45 else s.readyPin)
/-- FAULT_N. -/
def State.faultPad (s : State) : Pad :=
  if s.inReset || s.tap.highZ then .z
  else .drain (if s.tap.tests then bitOf s.tap.boundary 44 else !s.faultPin)
/-- PWR_FAIL: high impedance under POR_N; the supply monitor drives it high while it holds the package in reset, as R438 and R440
say beside Table 15-4 (DEDUCED, log 117). -/
def State.pwrPad (s : State) : Pad :=
  if s.supplyHold then .high
  else if s.inReset || s.tap.highZ then .z
  else .push (if s.tap.tests then bitOf s.tap.boundary 46 else s.pwrFail)
/-- Whether FE_TX of a lane, CH_TX of a port, TDO and the SPI balls are driven: none in reset; the lane with QUAD_CFG.TXEN, the port
with CHN_PORT.EN, SPI during boot only (R435, R451). -/
def State.feTxDriven (s : State) (l : LaneId) : Bool := !s.inReset && qTX (s.laneCfg l)
def State.chTxDriven (s : State) (p : PortId) : Bool := !s.inReset && bitOf (s.chnPort p) 31
def State.tdoDriven (s : State) : Bool := !s.inReset
def State.spiDriven (s : State) : Bool :=
  !s.inReset && bitOf (s.n0 0x7E00) 0 && !(fld (s.n0 0x7F20) 3 0 == 3 || fld (s.n0 0x7F20) 3 0 == 4)
/-- The level that the receiver of the DEC_OUTk pair reads. -/
def State.decOut (s : State) (k : Nat) : Bool := s.decPad k = .high

/-- Cells whose level the model holds: decision pairs, reset, stop, status and address pins. An open-drain ball that nothing drives
is high; of PWR_FAIL in high impedance the level is open. -/
def State.knownCells (s : State) : List (Nat × Bool) :=
  (List.range 32).map (fun k => (cellOut k, s.decOut k)) ++ (List.range 16).map (fun k => (cellIn k, bitOf s.pins.decIn k)) ++
    [(41, s.pins.por), (42, s.pins.perst), (43, s.pins.halt), (44, s.faultPad ≠ .low), (45, s.readyPad ≠ .low)] ++
    (if s.pwrPad = .z then [] else [(46, decide (s.pwrPad = .high))]) ++
    (List.range 3).map fun j => (69 + j, s.pins.i2cA.val.testBit j)
/-- The cells as captured: the levels of the other balls are open (log 1). -/
def State.sampleCells (s : State) : BitVec 396 :=
  let free := sumNat ((List.range 13).map fun j => (Config.freeWord (s.freeCtr + j)).toNat * 2 ^ (32 * j))
  s.knownCells.foldl (fun x p => setBit x p.1 p.2) (BitVec.ofNat 396 free)
/-- An instruction enters the instruction register and its data register is captured; in reset the TAP does not run (R435). -/
def State.tapLoad (s : State) (ir : BitVec 8) (dr : BitVec 396) : State :=
  if s.inReset then s else { s with tap := { s.tap with ir := ir, dr := dr } }
/-- An instruction that captures the boundary cells. What EXTEST and its two kin shift in, their rows of the table do not carry: the
boundary register keeps the cells that SAMPLE/PRELOAD has given it (DESIGN CHOICE, log 118). -/
def State.tapSample (s : State) (ir : BitVec 8) : State :=
  if s.inReset then s else { s.tapLoad ir s.sampleCells with freeCtr := s.freeCtr + 13 }
/-- The JTAG identity. -/
def idcodeWord : Word := at32 28 (stepCode Config.stepping) ||| at32 12 0x7144 ||| at32 1 0x6D5 ||| at32 0 1
/-- READY0 to READY9, READY0 bit 0 first. -/
def State.readyScan (s : State) : BitVec 396 :=
  BitVec.ofNat 396 (sumNat ((List.range 10).map fun k => (s.ready k).toNat * 2 ^ (32 * k)))

/-- EXTEST. -/
def execExtest (s : State) : Out := .next (s.tapSample 0x00)
/-- SAMPLE_PRELOAD: the levels are captured and the cells shifted in become the boundary register. -/
def execSamplePreload (cells : BitVec 396) (s : State) : Out :=
  let t := s.tapSample 0x01
  .next (if s.inReset then s else { t with tap := { t.tap with boundary := cells } })
/-- IDCODE. -/
def execIdcode (s : State) : Out := .next (s.tapLoad 0x02 (idcodeWord.setWidth 396))
/-- CLAMP: the one-bit bypass register captures 0. -/
def execClamp (s : State) : Out := .next (s.tapLoad 0x03 0)
/-- HIGHZ. -/
def execHighz (s : State) : Out := .next (s.tapLoad 0x04 0)
/-- EXTEST_PULSE. -/
def execExtestPulse (s : State) : Out := .next (s.tapSample 0x05)
/-- EXTEST_TRAIN. -/
def execExtestTrain (s : State) : Out := .next (s.tapSample 0x06)
/-- READYSCAN. -/
def execReadyscan (s : State) : Out := .next (s.tapLoad 0x10 s.readyScan)
/-- BYPASS. -/
def execBypass (s : State) : Out := .next (s.tapLoad 0xFF 0)
/-- TAP_RESET: the instruction register holds IDCODE. -/
def execTapReset (s : State) : Out := .next (s.tapLoad 0x02 (idcodeWord.setWidth 396))

/-! ## PCIe link -/

/-- The configuration space of the endpoint where Table 15-9 fixes it: the identity, the revision and class code, and the address
bits that its BARs implement (4 KiB and 128 GiB, 64 bits wide, the second one prefetchable). No command of the table reaches it
(log 116). -/
def pcieConfig (off : Nat) : Word :=
  if off = 0 then at32 16 0x7144 ||| at32 0 0x1F5C
  else if off = 8 then at32 8 0x118000 ||| at32 0 (stepCode Config.stepping)
  else if off = 0x10 then 0xFFFFF004#32
  else if off = 0x18 then 0x0000000C#32
  else if off = 0x14 then 0xFFFFFFFF#32
  else if off = 0x1C then 0xFFFFFFE0#32
  else 0#32

/-- PCIE_LINK_UP: the data link layer is active once training has begun (R442). -/
def execPcieLinkUp (s : State) : Out :=
  .next (if s.pcie.training then { s with pcie := { s.pcie with link := true } }.msiPending else s)
/-- PCIE_LINK_DOWN: the link only; no slot is unbound (R447). -/
def execPcieLinkDown (s : State) : Out := .next { s with pcie := { s.pcie with link := false } }

end Sys2Proof.Machine
end

