-- ==== Sys2Proof/Machine/CmdRegister.lean ====
section
/-!
DEFINITION. Machine/CmdRegister.lean: commands that read or write one register. Each names its register; the checks and the
effect are those of every access to it (RegFile).
-/
namespace Sys2Proof.Machine

/-- A write of a die register at an index that its range has; at any other index no register is there (R123). -/
def State.cmdIf (s : State) (ok : Bool) (m : Master) (t : Target) (v : Word) : State :=
  if ok then s.cmdWrite m t v else s.answer (.bus 0)

/-- Bit 31 set. -/
def top1 (v : Word) : Word := setBit v 31 true

/-! ## Any register -/

/-- REGISTER_WRITE. -/
def execRegisterWrite (m : Master) (t : Target) (v : Word) (s : State) : Out := .next (s.cmdWrite m t v)
/-- RC_READ: the read clears its RC fields. -/
def execRcRead (m : Master) (t : Target) (s : State) : Out := .next (s.cmdRead m t)
/-- NOW_LO_READ: HEL_NOW_LO, which latches HEL_NOW_HI. -/
def execNowLoRead (m : Master) (s : State) : Out := .next (s.cmdRead m (.die newt0 0x5014))
/-- LAST_LO_READ: TIM_LAST_LO, which latches TIM_LAST_HI. -/
def execLastLoRead (m : Master) (e : EngineId) (s : State) : Out := .next (s.cmdRead m (.io e 0x874))
/-- TIMESTAMP_READ: CAP_TSHI, which frees the timestamp. -/
def execTimestampRead (m : Master) (n : Fin 2) (k : Fin 16) (s : State) : Out :=
  .next (s.cmdRead m (.die (newtDie n) (0x5108 + 16 * k.val)))

/-! ## Input queues -/

/-- IQ_POP. -/
def execIqPop (m : Master) (e : EngineId) (q : Fin 16) (s : State) : Out := .next (s.cmdRead m (.io e (0x40 + 4 * q.val)))
/-- IQ_WORD_PUSH. -/
def execIqWordPush (m : Master) (e : EngineId) (q : Fin 16) (v : Word) (s : State) : Out :=
  .next (s.cmdWrite m (.io e (0x40 + 4 * q.val)) v)
/-- IQ_PUSH: 32 bytes from an internal master (R295). -/
def execIqPush (e : EngineId) (q : Fin 16) (ws : W256) (s : State) : Out := .next ((s.iqSend e q (words8 ws) none).1)

/-! ## Engine registers -/

/-- BTB_FLUSH: ENG_ISSUE with FLUSH = 1. -/
def execBtbFlush (m : Master) (e : EngineId) (v : Word) (s : State) : Out :=
  .next (s.cmdWrite m (.io e 0x800) (setBit v 2 true))
/-- IMAGE_CHECK: ENG_IMGCHK with GO = 1. -/
def execImageCheck (m : Master) (e : EngineId) (v : Word) (s : State) : Out := .next (s.cmdWrite m (.io e 0x818) (top1 v))
/-- ILDATA_WRITE. -/
def execIldataWrite (m : Master) (e : EngineId) (v : Word) (s : State) : Out := .next (s.cmdWrite m (.io e 0x824) v)
/-- VEC_WAKE: VEC_PWR with WAKE = 1. -/
def execVecWake (m : Master) (e : EngineId) (v : Word) (s : State) : Out :=
  .next (s.cmdWrite m (.io e 0x840) (setBit v 1 true))
/-- PINON: VEC_PWR. -/
def execPinon (m : Master) (e : EngineId) (v : Word) (s : State) : Out := .next (s.cmdWrite m (.io e 0x840) v)
/-- BANK_GIVE. -/
def execBankGive (m : Master) (e : EngineId) (v : Word) (s : State) : Out := .next (s.cmdWrite m (.io e 0x888) v)
/-- RECLAIM: BANK_GIVE with RECLAIM = 1. -/
def execReclaim (m : Master) (e : EngineId) (bank : Fin 16) (s : State) : Out :=
  .next (s.cmdWrite m (.io e 0x888) (at32 8 1 ||| at32 0 bank.val))
/-- RECLAIM_COMPLETE. -/
def execReclaimComplete (e : EngineId) (bank : Fin 16) (s : State) : Out := .next (s.reclaimDone e bank.val)
/-- IINV: MEM_CACHE.IINV. -/
def execIinv (m : Master) (e : EngineId) (s : State) : Out := .next (s.cmdWrite m (.io e 0x894) 2#32)
/-- DINV: MEM_CACHE.DINV. -/
def execDinv (m : Master) (e : EngineId) (s : State) : Out := .next (s.cmdWrite m (.io e 0x894) 1#32)
/-- EXC_CTL_WRITE. -/
def execExcCtlWrite (m : Master) (e : EngineId) (v : Word) (s : State) : Out := .next (s.cmdWrite m (.io e 0x8C0) v)
/-- DOORBELL. -/
def execDoorbell (m : Master) (e : EngineId) (v : Word) (s : State) : Out := .next (s.cmdWrite m (.io e 0x8D4) v)
/-- ENG_START_WRITE. -/
def execEngStartWrite (m : Master) (e : EngineId) (v : Word) (s : State) : Out := .next (s.cmdWrite m (.io e 0xB10) v)
/-- PT_BASE_WRITE. -/
def execPtBaseWrite (m : Master) (e : EngineId) (v : Word) (s : State) : Out := .next (s.cmdWrite m (.io e 0x8A0) v)
/-- TLB_INV. -/
def execTlbInv (m : Master) (e : EngineId) (v : Word) (s : State) : Out := .next (s.cmdWrite m (.io e 0x8A4) v)
/-- ENG_SNAP_ACCESS: a read or a write of a word of the state window (R429). -/
def execEngSnapAccess (m : Master) (e : EngineId) (off : Nat) (w : Option Word) (s : State) : Out :=
  .next (match w with
    | some v => s.cmdIf (decide (off < 0x600)) m (.io e (0x1000 + off)) v
    | none => if off < 0x600 then s.cmdRead m (.io e (0x1000 + off)) else s.answer (.bus 0))

/-! ## Claims, capture units, decision outputs, timers -/

/-- TIMER_FIRE. -/
def execTimerFire (t : RedId) (s : State) : Out := .next (s.timerFire t)
/-- CLAIM: CLM_r.CMD = 1. -/
def execClaim (m : Master) (d : DieId) (r : Nat) (s : State) : Out :=
  .next (s.cmdIf (decide (r < 0x70)) m (.die d (0x7A00 + 4 * r)) 1#32)
/-- RELEASE: CLM_r.CMD = 2. -/
def execRelease (m : Master) (d : DieId) (r : Nat) (s : State) : Out :=
  .next (s.cmdIf (decide (r < 0x70)) m (.die d (0x7A00 + 4 * r)) 2#32)
/-- DIN_TS_ENABLE: bit i of DIN_TS.EN set. -/
def execDinTsEnable (m : Master) (n : Fin 2) (i : Fin 8) (s : State) : Out :=
  .next (s.cmdWrite m (.die (newtDie n) 0x5300) (setBit (s.dGet (newtDie n) 0x5300 &&& 0xFF#32) i.val true))
/-- DIN_TS_DISABLE: bit i of DIN_TS.EN cleared. -/
def execDinTsDisable (m : Master) (n : Fin 2) (i : Fin 8) (s : State) : Out :=
  .next (s.cmdWrite m (.die (newtDie n) 0x5300) (setBit (s.dGet (newtDie n) 0x5300 &&& 0xFF#32) i.val false))
/-- LAT_MEAS_ENABLE: LAT_MEAS with EN = 1. -/
def execLatMeasEnable (m : Master) (n : Fin 2) (l : Fin 72) (s : State) : Out :=
  .next (s.cmdWrite m (.die (newtDie n) 0x3704) (at32 31 1 ||| at32 0 l.val))
/-- LAT_MEAS_DISABLE: LAT_MEAS with EN = 0. -/
def execLatMeasDisable (m : Master) (n : Fin 2) (s : State) : Out :=
  .next (s.cmdWrite m (.die (newtDie n) 0x3704) (s.dGet (newtDie n) 0x3704 &&& 0x7F#32))
/-- DEC_IN_EDGE. -/
def execDecInEdge (k : Fin 16) (rising : Bool) (s : State) : Out := .next (s.decEdge k rising)
/-- DEC_STAGE_WRITE. -/
def execDecStageWrite (m : Master) (k : Fin 32) (v : Word) (s : State) : Out :=
  .next (s.cmdWrite m (.die (decNewt k.val) (0x100 + k.val)) v)
/-- FINE_DELAY_APPLY. -/
def execFineDelayApply (k : Fin 32) (s : State) : Out := .next (s.fineApply k)

/-! ## Timed commit, dual commit, tokens, host page -/

/-- TIMED_COMMIT_GO: TC_CTL with GO = 1. -/
def execTimedCommitGo (m : Master) (v : Word) (s : State) : Out := .next (s.cmdWrite m (.die newt0 0x5400) (top1 v))
/-- PROPOSE: LARK_PROPOSE with GO = 1. -/
def execPropose (m : Master) (v : Word) (s : State) : Out := .next (s.cmdWrite m (.die newt0 0x7614) (setBit v 0 true))
/-- CONFIRM. -/
def execConfirm (m : Master) (v : Word) (s : State) : Out := .next (s.cmdWrite m (.die newt0 0x7618) v)
/-- LARK_TIMEOUT. -/
def execLarkTimeout  (s : State) : Out := .next s.larkTimeout
/-- VALUE_IN_FORCE. -/
def execValueInForce  (s : State) : Out := .next s.larkForce
/-- WORLD_CLEAR. -/
def execWorldClear (e : EngineId) (s : State) : Out := .next (s.worldClear e)
/-- SEAL: LARK_SEAL = 1. -/
def execSeal (m : Master) (v : Word) (s : State) : Out := .next (s.cmdWrite m (.die newt0 0x7634) (setBit v 0 true))
/-- MINT: TKN_MINT2 with GO = 1. -/
def execMint (m : Master) (v : Word) (s : State) : Out := .next (s.cmdWrite m (.die newt0 0x7718) (top1 v))
/-- BIND: HSLOT_CTL with BIND = 1, by the host, which reaches BAR0 while the endpoint is out of reset and the link up (R442). -/
def execBind (i : SlotId) (s : State) : Out :=
  .next (if s.hostUp then s.bar0Write (0x20 * i.val + 0x10) (at32 31 1) else s)
/-- HOST_RING. -/
def execHostRing (m : Master) (v : Word) (s : State) : Out := .next (s.cmdWrite m (.die newt0 0x7F40) v)

/-! ## DMA and slot tables -/

/-- DMA_CTX_WRITE. -/
def execDmaCtxWrite (m : Master) (d : DieId) (n : Fin 64) (w : Fin 2) (v : Word) (s : State) : Out :=
  .next (s.cmdWrite m (.die d (0x7800 + 8 * n.val + 4 * w.val)) v)
/-- IOMMU_INVALIDATE: IOMMU_INV with GO = 1. -/
def execIommuInvalidate (m : Master) (d : DieId) (v : Word) (s : State) : Out :=
  .next (s.cmdWrite m (.die d 0x7504) (setBit v 8 true))
/-- IOMMU_INV_DONE. -/
def execIommuInvDone (d : DieId) (s : State) : Out := .next (s.iommuDone d)
/-- Address of a channel's registers on its die. -/
def dmaPort (c : ChanId) : Nat := 0x7400 + 0x20 * chanLocal c

/-- DMA_GO: DMA_CTRL with GO = 1. -/
def execDmaGo (m : Master) (c : ChanId) (v : Word) (s : State) : Out :=
  .next (s.cmdWrite m (.die (chanDie c) (dmaPort c)) (setFld v 31 29 4))
/-- DMA_RESUME: DMA_CTRL with RESUME = 1. -/
def execDmaResume (m : Master) (c : ChanId) (s : State) : Out :=
  .next (s.cmdWrite m (.die (chanDie c) (dmaPort c)) (at32 30 1 ||| at32 0 s.dma[c].ctx))
/-- DMA_ABORT: DMA_CTRL with ABORT = 1. -/
def execDmaAbort (m : Master) (c : ChanId) (s : State) : Out :=
  .next (s.cmdWrite m (.die (chanDie c) (dmaPort c)) (at32 29 1 ||| at32 0 s.dma[c].ctx))
/-- DMA_PAUSE. -/
def execDmaPause (m : Master) (d : DieId) (v : Word) (s : State) : Out := .next (s.cmdWrite m (.die d 0x7500) v)
/-- SLOT_ENTRY_WRITE. -/
def execSlotEntryWrite (m : Master) (d : DieId) (b : Fin 2) (port i : Nat) (v : Word) (s : State) : Out :=
  .next (s.cmdIf (decide (port < 64) && decide (i < 128)) m (.die d (0x8000 + 0x4000 * b.val + 0x100 * port + 2 * i)) v)
/-- ENG_MAP_WRITE. -/
def execEngMapWrite (m : Master) (d : DieId) (b k : Fin 2) (v : Word) (s : State) : Out :=
  .next (s.cmdWrite m (.die d (0x7D40 + 8 * b.val + 4 * k.val)) v)

/-! ## Front-end, chain, time, Foxglove registers -/

/-- ROUTE_ENTRY_WRITE. -/
def execRouteEntryWrite (m : Master) (l : LaneId) (k : Fin 4) (w : Fin 3) (v : Word) (s : State) : Out :=
  .next (s.cmdWrite m (.die (laneDie l) (0x6000 + 0x10 * (4 * laneLocal l + k.val) + 4 * w.val)) v)
/-- QUAD_ENABLE: QUAD_CFG with EN = 1. -/
def execQuadEnable (m : Master) (q : QuadId) (v : Word) (s : State) : Out :=
  .next (s.cmdWrite m (.die (quadDie q) (quadPort q)) (top1 v))
/-- QUAD_DISABLE: QUAD_CFG with EN = 0. -/
def execQuadDisable (m : Master) (q : QuadId) (v : Word) (s : State) : Out :=
  .next (s.cmdWrite m (.die (quadDie q) (quadPort q)) (setBit v 31 false))
/-- LANE_SCHED_WRITE. -/
def execLaneSchedWrite (m : Master) (l : LaneId) (v : Word) (s : State) : Out :=
  .next (s.cmdWrite m (.die (laneDie l) (0x3300 + 4 * laneLocal l)) v)
/-- CHAN_MASK_CLEAR: a 1 to the bit of the lane. -/
def execChanMaskClear (m : Master) (d : DieId) (l : LaneId) (s : State) : Out :=
  .next (s.cmdWrite m (.die d (0x4200 + 4 * (l.val / 32))) (at32 (l.val % 32) 1))
/-- CHAIN_PORT_ENABLE: CHN_PORT with EN = 1. -/
def execChainPortEnable (m : Master) (p : PortId) (v : Word) (s : State) : Out :=
  .next (s.cmdWrite m (.die (chnDie p) (chnReg p)) (top1 v))
/-- SET_DEVICE_ID. -/
def execSetDeviceId (m : Master) (v : Word) (s : State) : Out := .next (s.cmdWrite m (.die newt0 0x5800) v)
/-- SEND_SETID: CHN_CTL with SEND = 1. -/
def execSendSetid (m : Master) (v : Word) (s : State) : Out := .next (s.cmdWrite m (.die newt0 0x5804) (top1 v))
/-- HEL_CFG_WRITE. -/
def execHelCfgWrite (m : Master) (v : Word) (s : State) : Out := .next (s.cmdWrite m (.die newt0 0x5000) v)
/-- EPOCH_LOAD: HEL_EPOCH_HI. -/
def execEpochLoad (m : Master) (v : Word) (s : State) : Out := .next (s.cmdWrite m (.die newt0 0x5020) v)
/-- REDUCTION_LOCAL. -/
def execReductionLocal (m : Master) (c : RedId) (v : Word) (s : State) : Out :=
  .next (s.cmdWrite m (.die newt0 (0x5A04 + 16 * c.val)) v)
/-- FOX_CTL_WRITE. -/
def execFoxCtlWrite (m : Master) (g : GeckoId) (v : Word) (s : State) : Out :=
  .next (s.cmdWrite m (.die (geckoDie g) 0x6000) v)
/-- SEGMENT_ONLINE_REQUEST: bit i of FOX_SEGCTL.ONREQ set. -/
def execSegmentOnlineRequest (m : Master) (g : GeckoId) (i : Fin 8) (t : State) : Out :=
  .next (t.cmdWrite m (.die (geckoDie g) 0x600C) (setBit (t.foxOnreq g) i.val true))
/-- SEGMENT_OFFLINE_REQUEST: bit i of FOX_SEGCTL.ONREQ cleared. -/
def execSegmentOfflineRequest (m : Master) (g : GeckoId) (i : Fin 8) (t : State) : Out :=
  .next (t.cmdWrite m (.die (geckoDie g) 0x600C) (setBit (t.foxOnreq g) i.val false))

end Sys2Proof.Machine
end

