-- ==== Sys2Proof/Machine/CmdScalar.lean ====
section
/-!
DEFINITION. Machine/CmdScalar.lean: the operations of the scalar units, each triggered with a value v (Tables 2-5 and 4-1 to
4-10).
-/
namespace Sys2Proof.Machine

/-! ## alu0 and alu1 (R104 to R107) -/

/-- ADD. -/
def execAdd (e : EngineId) (u : Fin 2) (v : Word) (s : State) : Out := .next (s.trigger e (3 + u.val) AluOp.add.code (v.setWidth 128))
/-- SUB. -/
def execSub (e : EngineId) (u : Fin 2) (v : Word) (s : State) : Out := .next (s.trigger e (3 + u.val) AluOp.sub.code (v.setWidth 128))
/-- NEG. -/
def execNeg (e : EngineId) (u : Fin 2) (v : Word) (s : State) : Out := .next (s.trigger e (3 + u.val) AluOp.neg.code (v.setWidth 128))
/-- ADDS. -/
def execAdds (e : EngineId) (u : Fin 2) (v : Word) (s : State) : Out := .next (s.trigger e (3 + u.val) AluOp.adds.code (v.setWidth 128))
/-- SUBS. -/
def execSubs (e : EngineId) (u : Fin 2) (v : Word) (s : State) : Out := .next (s.trigger e (3 + u.val) AluOp.subs.code (v.setWidth 128))
/-- NEGS. -/
def execNegs (e : EngineId) (u : Fin 2) (v : Word) (s : State) : Out := .next (s.trigger e (3 + u.val) AluOp.negs.code (v.setWidth 128))
/-- ADDT. -/
def execAddt (e : EngineId) (u : Fin 2) (v : Word) (s : State) : Out := .next (s.trigger e (3 + u.val) AluOp.addt.code (v.setWidth 128))
/-- SUBT. -/
def execSubt (e : EngineId) (u : Fin 2) (v : Word) (s : State) : Out := .next (s.trigger e (3 + u.val) AluOp.subt.code (v.setWidth 128))
/-- NEGT. -/
def execNegt (e : EngineId) (u : Fin 2) (v : Word) (s : State) : Out := .next (s.trigger e (3 + u.val) AluOp.negt.code (v.setWidth 128))
/-- ABS. -/
def execAbs (e : EngineId) (u : Fin 2) (v : Word) (s : State) : Out := .next (s.trigger e (3 + u.val) AluOp.abs.code (v.setWidth 128))
/-- ABSS. -/
def execAbss (e : EngineId) (u : Fin 2) (v : Word) (s : State) : Out := .next (s.trigger e (3 + u.val) AluOp.abss.code (v.setWidth 128))
/-- AND. -/
def execAnd (e : EngineId) (u : Fin 2) (v : Word) (s : State) : Out := .next (s.trigger e (3 + u.val) AluOp.and.code (v.setWidth 128))
/-- OR. -/
def execOr (e : EngineId) (u : Fin 2) (v : Word) (s : State) : Out := .next (s.trigger e (3 + u.val) AluOp.or.code (v.setWidth 128))
/-- XOR. -/
def execXor (e : EngineId) (u : Fin 2) (v : Word) (s : State) : Out := .next (s.trigger e (3 + u.val) AluOp.xor.code (v.setWidth 128))
/-- ANDN. -/
def execAndn (e : EngineId) (u : Fin 2) (v : Word) (s : State) : Out := .next (s.trigger e (3 + u.val) AluOp.andn.code (v.setWidth 128))
/-- NOR. -/
def execNor (e : EngineId) (u : Fin 2) (v : Word) (s : State) : Out := .next (s.trigger e (3 + u.val) AluOp.nor.code (v.setWidth 128))
/-- SHL. -/
def execShl (e : EngineId) (u : Fin 2) (v : Word) (s : State) : Out := .next (s.trigger e (3 + u.val) AluOp.shl.code (v.setWidth 128))
/-- SHR. -/
def execShr (e : EngineId) (u : Fin 2) (v : Word) (s : State) : Out := .next (s.trigger e (3 + u.val) AluOp.shr.code (v.setWidth 128))
/-- SAR. -/
def execSar (e : EngineId) (u : Fin 2) (v : Word) (s : State) : Out := .next (s.trigger e (3 + u.val) AluOp.sar.code (v.setWidth 128))
/-- ROL. -/
def execRol (e : EngineId) (u : Fin 2) (v : Word) (s : State) : Out := .next (s.trigger e (3 + u.val) AluOp.rol.code (v.setWidth 128))
/-- ROR. -/
def execRor (e : EngineId) (u : Fin 2) (v : Word) (s : State) : Out := .next (s.trigger e (3 + u.val) AluOp.ror.code (v.setWidth 128))
/-- MIN. -/
def execMin (e : EngineId) (u : Fin 2) (v : Word) (s : State) : Out := .next (s.trigger e (3 + u.val) AluOp.min.code (v.setWidth 128))
/-- MAX. -/
def execMax (e : EngineId) (u : Fin 2) (v : Word) (s : State) : Out := .next (s.trigger e (3 + u.val) AluOp.max.code (v.setWidth 128))
/-- MINU. -/
def execMinu (e : EngineId) (u : Fin 2) (v : Word) (s : State) : Out := .next (s.trigger e (3 + u.val) AluOp.minu.code (v.setWidth 128))
/-- MAXU. -/
def execMaxu (e : EngineId) (u : Fin 2) (v : Word) (s : State) : Out := .next (s.trigger e (3 + u.val) AluOp.maxu.code (v.setWidth 128))
/-- CMPEQ. -/
def execCmpeq (e : EngineId) (u : Fin 2) (v : Word) (s : State) : Out := .next (s.trigger e (3 + u.val) AluOp.cmpeq.code (v.setWidth 128))
/-- CMPNE. -/
def execCmpne (e : EngineId) (u : Fin 2) (v : Word) (s : State) : Out := .next (s.trigger e (3 + u.val) AluOp.cmpne.code (v.setWidth 128))
/-- CMPLT. -/
def execCmplt (e : EngineId) (u : Fin 2) (v : Word) (s : State) : Out := .next (s.trigger e (3 + u.val) AluOp.cmplt.code (v.setWidth 128))
/-- CMPLE. -/
def execCmple (e : EngineId) (u : Fin 2) (v : Word) (s : State) : Out := .next (s.trigger e (3 + u.val) AluOp.cmple.code (v.setWidth 128))
/-- CMPLTU. -/
def execCmpltu (e : EngineId) (u : Fin 2) (v : Word) (s : State) : Out := .next (s.trigger e (3 + u.val) AluOp.cmpltu.code (v.setWidth 128))
/-- CMPLEU. -/
def execCmpleu (e : EngineId) (u : Fin 2) (v : Word) (s : State) : Out := .next (s.trigger e (3 + u.val) AluOp.cmpleu.code (v.setWidth 128))
/-- PASS. -/
def execPass (e : EngineId) (u : Fin 2) (v : Word) (s : State) : Out := .next (s.trigger e (3 + u.val) AluOp.pass.code (v.setWidth 128))
/-- SXB. -/
def execSxb (e : EngineId) (u : Fin 2) (v : Word) (s : State) : Out := .next (s.trigger e (3 + u.val) AluOp.sxb.code (v.setWidth 128))
/-- SXH. -/
def execSxh (e : EngineId) (u : Fin 2) (v : Word) (s : State) : Out := .next (s.trigger e (3 + u.val) AluOp.sxh.code (v.setWidth 128))
/-- ZXB. -/
def execZxb (e : EngineId) (u : Fin 2) (v : Word) (s : State) : Out := .next (s.trigger e (3 + u.val) AluOp.zxb.code (v.setWidth 128))
/-- ZXH. -/
def execZxh (e : EngineId) (u : Fin 2) (v : Word) (s : State) : Out := .next (s.trigger e (3 + u.val) AluOp.zxh.code (v.setWidth 128))

/-! ## mul (R108, R109) -/

/-- MUL. -/
def execMul (e : EngineId) (v : Word) (s : State) : Out := .next (s.trigger e 5 MulOp.mul.code (v.setWidth 128))
/-- MULHS. -/
def execMulhs (e : EngineId) (v : Word) (s : State) : Out := .next (s.trigger e 5 MulOp.mulhs.code (v.setWidth 128))
/-- MULHU. -/
def execMulhu (e : EngineId) (v : Word) (s : State) : Out := .next (s.trigger e 5 MulOp.mulhu.code (v.setWidth 128))
/-- MULT. -/
def execMult (e : EngineId) (v : Word) (s : State) : Out := .next (s.trigger e 5 MulOp.mult.code (v.setWidth 128))
/-- MULS. -/
def execMuls (e : EngineId) (v : Word) (s : State) : Out := .next (s.trigger e 5 MulOp.muls.code (v.setWidth 128))
/-- MAC. -/
def execMac (e : EngineId) (v : Word) (s : State) : Out := .next (s.trigger e 5 MulOp.mac.code (v.setWidth 128))
/-- MACS. -/
def execMacs (e : EngineId) (v : Word) (s : State) : Out := .next (s.trigger e 5 MulOp.macs.code (v.setWidth 128))
/-- MULQ31. -/
def execMulq31 (e : EngineId) (v : Word) (s : State) : Out := .next (s.trigger e 5 MulOp.mulq31.code (v.setWidth 128))
/-- MULQ15. -/
def execMulq15 (e : EngineId) (v : Word) (s : State) : Out := .next (s.trigger e 5 MulOp.mulq15.code (v.setWidth 128))

/-! ## div (R110, R111) -/

/-- DIVS. -/
def execDivs (e : EngineId) (v : Word) (s : State) : Out := .next (s.trigger e 6 DivOp.divs.code (v.setWidth 128))
/-- DIVU. -/
def execDivu (e : EngineId) (v : Word) (s : State) : Out := .next (s.trigger e 6 DivOp.divu.code (v.setWidth 128))
/-- DIVSS. -/
def execDivss (e : EngineId) (v : Word) (s : State) : Out := .next (s.trigger e 6 DivOp.divss.code (v.setWidth 128))
/-- DIVT. -/
def execDivt (e : EngineId) (v : Word) (s : State) : Out := .next (s.trigger e 6 DivOp.divt.code (v.setWidth 128))
/-- DIVUT. -/
def execDivut (e : EngineId) (v : Word) (s : State) : Out := .next (s.trigger e 6 DivOp.divut.code (v.setWidth 128))

/-! ## bfu (R113, R114) -/

/-- EXT. -/
def execExt (e : EngineId) (v : Word) (s : State) : Out := .next (s.trigger e 7 BfuOp.ext.code (v.setWidth 128))
/-- EXTS. -/
def execExts (e : EngineId) (v : Word) (s : State) : Out := .next (s.trigger e 7 BfuOp.exts.code (v.setWidth 128))
/-- INS. -/
def execIns (e : EngineId) (v : Word) (s : State) : Out := .next (s.trigger e 7 BfuOp.ins.code (v.setWidth 128))
/-- CLZ. -/
def execClz (e : EngineId) (v : Word) (s : State) : Out := .next (s.trigger e 7 BfuOp.clz.code (v.setWidth 128))
/-- CTZ. -/
def execCtz (e : EngineId) (v : Word) (s : State) : Out := .next (s.trigger e 7 BfuOp.ctz.code (v.setWidth 128))
/-- POPC. -/
def execPopc (e : EngineId) (v : Word) (s : State) : Out := .next (s.trigger e 7 BfuOp.popc.code (v.setWidth 128))
/-- BSWAP. -/
def execBswap (e : EngineId) (v : Word) (s : State) : Out := .next (s.trigger e 7 BfuOp.bswap.code (v.setWidth 128))
/-- BREV. -/
def execBrev (e : EngineId) (v : Word) (s : State) : Out := .next (s.trigger e 7 BfuOp.brev.code (v.setWidth 128))
/-- PERM. -/
def execPerm (e : EngineId) (v : Word) (s : State) : Out := .next (s.trigger e 7 BfuOp.perm.code (v.setWidth 128))

/-! ## cu (R58, R360, R385) -/

/-- JUMP. -/
def execJump (e : EngineId) (v : Word) (s : State) : Out := .next (s.trigger e 8 0 (v.setWidth 128))
/-- JUMPR. -/
def execJumpr (e : EngineId) (v : Word) (s : State) : Out := .next (s.trigger e 8 1 (v.setWidth 128))
/-- CALL. -/
def execCall (e : EngineId) (v : Word) (s : State) : Out := .next (s.trigger e 8 2 (v.setWidth 128))
/-- CALLR. -/
def execCallr (e : EngineId) (v : Word) (s : State) : Out := .next (s.trigger e 8 3 (v.setWidth 128))
/-- RET. -/
def execRet (e : EngineId) (s : State) : Out := .next (s.trigger e 8 4 0)
/-- LOOP. -/
def execLoop (e : EngineId) (v : Word) (s : State) : Out := .next (s.trigger e 8 5 (v.setWidth 128))
/-- SYSGATE. -/
def execSysgate (e : EngineId) (v : Word) (s : State) : Out := .next (s.trigger e 8 6 (v.setWidth 128))
/-- RTE. -/
def execRte (e : EngineId) (s : State) : Out := .next (s.trigger e 8 7 0)

/-! ## lsu (R116) -/

/-- LDB. -/
def execLdb (e : EngineId) (v : Word) (s : State) : Out := .next (s.trigger e 9 0 (v.setWidth 128))
/-- LDBU. -/
def execLdbu (e : EngineId) (v : Word) (s : State) : Out := .next (s.trigger e 9 1 (v.setWidth 128))
/-- LDH. -/
def execLdh (e : EngineId) (v : Word) (s : State) : Out := .next (s.trigger e 9 2 (v.setWidth 128))
/-- LDHU. -/
def execLdhu (e : EngineId) (v : Word) (s : State) : Out := .next (s.trigger e 9 3 (v.setWidth 128))
/-- LDW. -/
def execLdw (e : EngineId) (v : Word) (s : State) : Out := .next (s.trigger e 9 4 (v.setWidth 128))
/-- LD_HR. -/
def execLdHr (e : EngineId) (v : Word) (s : State) : Out := .next (s.trigger e 9 5 (v.setWidth 128))
/-- LD_WR. -/
def execLdWr (e : EngineId) (v : Word) (s : State) : Out := .next (s.trigger e 9 6 (v.setWidth 128))
/-- STB. -/
def execStb (e : EngineId) (v : Word) (s : State) : Out := .next (s.trigger e 9 8 (v.setWidth 128))
/-- STH. -/
def execSth (e : EngineId) (v : Word) (s : State) : Out := .next (s.trigger e 9 9 (v.setWidth 128))
/-- STW. -/
def execStw (e : EngineId) (v : Word) (s : State) : Out := .next (s.trigger e 9 10 (v.setWidth 128))

/-! ## pio (R122) -/

/-- IN. -/
def execIn (e : EngineId) (v : Word) (s : State) : Out := .next (s.trigger e 12 0 (v.setWidth 128))
/-- OUT. -/
def execOut (e : EngineId) (v : Word) (s : State) : Out := .next (s.trigger e 12 1 (v.setWidth 128))

/-! ## ixu (R124) -/

/-- RDW. -/
def execRdw (e : EngineId) (v : Word) (s : State) : Out := .next (s.trigger e 13 0 (v.setWidth 128))
/-- WRW. -/
def execWrw (e : EngineId) (v : Word) (s : State) : Out := .next (s.trigger e 13 1 (v.setWidth 128))

/-! ## tim (R127, R128, R236) -/

/-- NOWLO. -/
def execNowlo (e : EngineId) (s : State) : Out := .next (s.trigger e 14 0 0)
/-- NOWHI. -/
def execNowhi (e : EngineId) (s : State) : Out := .next (s.trigger e 14 1 0)
/-- WAITU. -/
def execWaitu (e : EngineId) (v : Word) (s : State) : Out := .next (s.trigger e 14 2 (v.setWidth 128))
/-- SETL. -/
def execSetl (e : EngineId) (v : Word) (s : State) : Out := .next (s.trigger e 14 3 (v.setWidth 128))

/-! ## sys (R130, R132) -/

/-- SYS_RD. -/
def execSysRd (e : EngineId) (v : Word) (s : State) : Out := .next (s.trigger e 15 0 (v.setWidth 128))
/-- WR_ASTAT. -/
def execWrAstat (e : EngineId) (v : Word) (s : State) : Out := .next (s.trigger e 15 17 (v.setWidth 128))
/-- WR_SSP. -/
def execWrSsp (e : EngineId) (v : Word) (s : State) : Out := .next (s.trigger e 15 21 (v.setWidth 128))
/-- WR_SBASE. -/
def execWrSbase (e : EngineId) (v : Word) (s : State) : Out := .next (s.trigger e 15 22 (v.setWidth 128))
/-- WR_SLIMIT. -/
def execWrSlimit (e : EngineId) (v : Word) (s : State) : Out := .next (s.trigger e 15 23 (v.setWidth 128))

end Sys2Proof.Machine
end

