-- ==== Sys2Proof/Machine/CmdTime.lean ====
section
/-!
DEFINITION. Machine/CmdTime.lean: events of Heliotrope (R221 to R234), of timed commit (R248 to R250), of reduction channels
(R315) and of chain ports, ids and stops (R301, R302, R313).
-/
namespace Sys2Proof.Machine

/-! ## Time -/

/-- EXPREF_PRESENT. -/
def execExprefPresent (hz : Nat) (s : State) : Out := .next (s.exprefSeen hz)
/-- MULTIPLIER_LOCK. -/
def execMultiplierLock (s : State) : Out := .next s.multLock
/-- EXPREF_LOST. -/
def execExprefLost (s : State) : Out := .next s.helLost
/-- TIME_REQ. -/
def execTimeReq (p : PortId) (k : Packet) (s : State) : Out := .next (s.vc0In p k 4 (·.timeReply p k))
/-- TIME_RSP. -/
def execTimeRsp (p : PortId) (k : Packet) (s : State) : Out := .next (s.vc0In p k 5 (·.timeTake p k))
/-- TIME_EXCHANGE. -/
def execTimeExchange (s : State) : Out := .next s.timeAsk
/-- CALIBRATION_DONE. -/
def execCalibrationDone (s : State) : Out := .next s.calDone
/-- RECALIBRATION. -/
def execRecalibration (s : State) : Out := .next s.recal
/-- CALIBRATION_TIMEOUT. -/
def execCalibrationTimeout (s : State) : Out := .next s.calTimeout
/-- PHASE_SLEW. -/
def execPhaseSlew (s : State) : Out := .next s.phaseSlew

/-! ## Timed commit -/

/-- ARM: on its way to a unit, or from the package above. -/
def execArm (src : CommitSrc) (s : State) : Out :=
  .next (match src with
    | .unit u => s.armUnit u
    | .port p k => s.vc0In p k 6 (·.armPort p k))
/-- UNIT_ACKNOWLEDGE. -/
def execUnitAcknowledge (u : Fin 108) (s : State) : Out := .next (s.unitAck u)
/-- COMMIT_ACK. -/
def execCommitAck (src : CommitSrc) (s : State) : Out := .next (match src with
    | .unit _ => s.ackFrom src
    | .port p k => s.vc0In p k 6 (·.ackFrom src))
/-- COMMIT_NAK. -/
def execCommitNak (src : CommitSrc) (s : State) : Out := .next (match src with
    | .unit _ => s.nakFrom src
    | .port p k => s.vc0In p k 6 (·.nakFrom src))
/-- COMMIT_ABORT. -/
def execCommitAbort (src : CommitSrc) (s : State) : Out := .next (match src with
    | .unit _ => s.abortFrom src
    | .port p k => s.vc0In p k 6 (·.abortFrom src))
/-- ACK_DEADLINE. -/
def execAckDeadline (s : State) : Out := .next s.ackDeadline
/-- COMMIT_APPLY. -/
def execCommitApply (u : Fin 108) (s : State) : Out := .next (s.commitApply u)

/-! ## Chain ports, ids, stops and reduction -/

/-- CHAIN_PORT_UP. -/
def execChainPortUp (p : PortId) (s : State) : Out := .next (s.chainUp p)
/-- CHAIN_PORT_DOWN. -/
def execChainPortDown (p : PortId) (s : State) : Out := .next (s.chainDown p)
/-- CHAIN_PORT_RETRY. -/
def execChainPortRetry (p : PortId) (s : State) : Out := .next (s.chainRetry p)
/-- SETID. -/
def execSetid (p : PortId) (k : Packet) (s : State) : Out := .next (s.vc0In p k 8 (·.setid k))
/-- STOP. -/
def execStop (p : PortId) (k : Packet) (s : State) : Out := .next (s.vc0In p k 7 (·.stopRx p k))
/-- REDUCTION_WORD. -/
def execReductionWord (p : PortId) (w : Dword) (s : State) : Out := .next (s.redPort p w)
/-- REDUCTION_DEADLINE. -/
def execReductionDeadline (c : RedId) (tag : BitVec 12) (s : State) : Out := .next (s.redDeadline c tag)

end Sys2Proof.Machine
end

