-- ==== Sys2Proof/Machine/CmdVector.lean ====
section
/-!
DEFINITION. Machine/CmdVector.lean: the operations of the vector unit, each triggered with a value v (Tables 5-2 to 5-4).
-/
namespace Sys2Proof.Machine

/-! ## vec with an element size (Table 5-2) -/

/-- VADD. -/
def execVadd (e : EngineId) (z : VSize) (v : Vec) (s : State) : Out := .next (s.trigger e 11 (VecOp.sized .vadd z).code v)
/-- VSUB. -/
def execVsub (e : EngineId) (z : VSize) (v : Vec) (s : State) : Out := .next (s.trigger e 11 (VecOp.sized .vsub z).code v)
/-- VADDS. -/
def execVadds (e : EngineId) (z : VSize) (v : Vec) (s : State) : Out := .next (s.trigger e 11 (VecOp.sized .vadds z).code v)
/-- VSUBS. -/
def execVsubs (e : EngineId) (z : VSize) (v : Vec) (s : State) : Out := .next (s.trigger e 11 (VecOp.sized .vsubs z).code v)
/-- VMUL. -/
def execVmul (e : EngineId) (z : VSize) (v : Vec) (s : State) : Out := .next (s.trigger e 11 (VecOp.sized .vmul z).code v)
/-- VMULQ. -/
def execVmulq (e : EngineId) (z : VSize) (v : Vec) (s : State) : Out := .next (s.trigger e 11 (VecOp.sized .vmulq z).code v)
/-- VMAC. -/
def execVmac (e : EngineId) (z : VSize) (v : Vec) (s : State) : Out := .next (s.trigger e 11 (VecOp.sized .vmac z).code v)
/-- VMACQ. -/
def execVmacq (e : EngineId) (z : VSize) (v : Vec) (s : State) : Out := .next (s.trigger e 11 (VecOp.sized .vmacq z).code v)
/-- VMIN. -/
def execVmin (e : EngineId) (z : VSize) (v : Vec) (s : State) : Out := .next (s.trigger e 11 (VecOp.sized .vmin z).code v)
/-- VMAX. -/
def execVmax (e : EngineId) (z : VSize) (v : Vec) (s : State) : Out := .next (s.trigger e 11 (VecOp.sized .vmax z).code v)
/-- VSHL. -/
def execVshl (e : EngineId) (z : VSize) (v : Vec) (s : State) : Out := .next (s.trigger e 11 (VecOp.sized .vshl z).code v)
/-- VSHR. -/
def execVshr (e : EngineId) (z : VSize) (v : Vec) (s : State) : Out := .next (s.trigger e 11 (VecOp.sized .vshr z).code v)
/-- VSAR. -/
def execVsar (e : EngineId) (z : VSize) (v : Vec) (s : State) : Out := .next (s.trigger e 11 (VecOp.sized .vsar z).code v)
/-- VCMPEQ. -/
def execVcmpeq (e : EngineId) (z : VSize) (v : Vec) (s : State) : Out := .next (s.trigger e 11 (VecOp.sized .vcmpeq z).code v)
/-- VCMPLT. -/
def execVcmplt (e : EngineId) (z : VSize) (v : Vec) (s : State) : Out := .next (s.trigger e 11 (VecOp.sized .vcmplt z).code v)
/-- VCMPLTU. -/
def execVcmpltu (e : EngineId) (z : VSize) (v : Vec) (s : State) : Out := .next (s.trigger e 11 (VecOp.sized .vcmpltu z).code v)

/-! ## vec without one (Table 5-3) -/

/-- VAND. -/
def execVand (e : EngineId) (v : Vec) (s : State) : Out := .next (s.trigger e 11 VecU.vand.code v)
/-- VOR. -/
def execVor (e : EngineId) (v : Vec) (s : State) : Out := .next (s.trigger e 11 VecU.vor.code v)
/-- VXOR. -/
def execVxor (e : EngineId) (v : Vec) (s : State) : Out := .next (s.trigger e 11 VecU.vxor.code v)
/-- VSEL. -/
def execVsel (e : EngineId) (v : Vec) (s : State) : Out := .next (s.trigger e 11 VecU.vsel.code v)
/-- VSPLATB. -/
def execVsplatb (e : EngineId) (v : Vec) (s : State) : Out := .next (s.trigger e 11 VecU.vsplatb.code v)
/-- VSPLATH. -/
def execVsplath (e : EngineId) (v : Vec) (s : State) : Out := .next (s.trigger e 11 VecU.vsplath.code v)
/-- VSPLATW. -/
def execVsplatw (e : EngineId) (v : Vec) (s : State) : Out := .next (s.trigger e 11 VecU.vsplatw.code v)
/-- VWSXBH. -/
def execVwsxbh (e : EngineId) (v : Vec) (s : State) : Out := .next (s.trigger e 11 VecU.vwsxbh.code v)
/-- VWSXHW. -/
def execVwsxhw (e : EngineId) (v : Vec) (s : State) : Out := .next (s.trigger e 11 VecU.vwsxhw.code v)
/-- VNSH. -/
def execVnsh (e : EngineId) (v : Vec) (s : State) : Out := .next (s.trigger e 11 VecU.vnsh.code v)
/-- VNSW. -/
def execVnsw (e : EngineId) (v : Vec) (s : State) : Out := .next (s.trigger e 11 VecU.vnsw.code v)
/-- VRSUMB. -/
def execVrsumb (e : EngineId) (v : Vec) (s : State) : Out := .next (s.trigger e 11 VecU.vrsumb.code v)
/-- VRSUMH. -/
def execVrsumh (e : EngineId) (v : Vec) (s : State) : Out := .next (s.trigger e 11 VecU.vrsumh.code v)
/-- VRSUMW. -/
def execVrsumw (e : EngineId) (v : Vec) (s : State) : Out := .next (s.trigger e 11 VecU.vrsumw.code v)
/-- VRMAXH. -/
def execVrmaxh (e : EngineId) (v : Vec) (s : State) : Out := .next (s.trigger e 11 VecU.vrmaxh.code v)
/-- VRPOPC. -/
def execVrpopc (e : EngineId) (v : Vec) (s : State) : Out := .next (s.trigger e 11 VecU.vrpopc.code v)

/-! ## vlsu (Table 5-4) -/

/-- VLD. -/
def execVld (e : EngineId) (v : Word) (s : State) : Out := .next (s.trigger e 10 0 (v.setWidth 128))
/-- VLD_D. -/
def execVldD (e : EngineId) (v : Word) (s : State) : Out := .next (s.trigger e 10 1 (v.setWidth 128))
/-- VLDM. -/
def execVldm (e : EngineId) (v : Word) (s : State) : Out := .next (s.trigger e 10 2 (v.setWidth 128))
/-- VST. -/
def execVst (e : EngineId) (v : Word) (s : State) : Out := .next (s.trigger e 10 8 (v.setWidth 128))
/-- VST_D. -/
def execVstD (e : EngineId) (v : Word) (s : State) : Out := .next (s.trigger e 10 9 (v.setWidth 128))
/-- VSTM. -/
def execVstm (e : EngineId) (v : Word) (s : State) : Out := .next (s.trigger e 10 10 (v.setWidth 128))
/-- VLD2. -/
def execVld2 (e : EngineId) (z : VSize) (v : Word) (s : State) : Out := .next (s.trigger e 10 (16 + vsCode z) (v.setWidth 128))
/-- VLD3. -/
def execVld3 (e : EngineId) (z : VSize) (v : Word) (s : State) : Out := .next (s.trigger e 10 (19 + vsCode z) (v.setWidth 128))
/-- VLD4. -/
def execVld4 (e : EngineId) (z : VSize) (v : Word) (s : State) : Out := .next (s.trigger e 10 (22 + vsCode z) (v.setWidth 128))
/-- VGATHER. -/
def execVgather (e : EngineId) (z : VSize) (v : Word) (s : State) : Out := .next (s.trigger e 10 (32 + vsCode z) (v.setWidth 128))
/-- VLDS. -/
def execVlds (e : EngineId) (z : VSize) (v : Word) (s : State) : Out := .next (s.trigger e 10 (36 + vsCode z) (v.setWidth 128))
/-- VSCATTER. -/
def execVscatter (e : EngineId) (z : VSize) (v : Word) (s : State) : Out := .next (s.trigger e 10 (40 + vsCode z) (v.setWidth 128))

end Sys2Proof.Machine
end

