-- ==== Sys2Proof/Machine/Dispatch.lean ====
section
/-!
DEFINITION. Machine/Dispatch.lean: the meaning of every command, one arm each.
-/
namespace Sys2Proof.Machine

/-- The effect of a command on everything but the queue. -/
def exec (i : Instr) (s : State) : Host.Outcome State Fault Refusal :=
  match i with
  | .powerOnReset => Sys2Proof.Machine.execPowerOnReset s
  | .bringUp straps => Sys2Proof.Machine.execBringUp straps s
  | .supplyMonitorReset => Sys2Proof.Machine.execSupplyMonitorReset s
  | .perst => Sys2Proof.Machine.execPerst s
  | .perstRelease => Sys2Proof.Machine.execPerstRelease s
  | .halt low => Sys2Proof.Machine.execHalt low s
  | .keeperBoot sfdp primary backup => Sys2Proof.Machine.execKeeperBoot sfdp primary backup s
  | .bootMboxWrite m v => Sys2Proof.Machine.execBootMboxWrite m v s
  | .bundleIssue e => Sys2Proof.Machine.execBundleIssue e s
  | .launchIssue e => Sys2Proof.Machine.execLaunchIssue e s
  | .waitUntilEnd e => Sys2Proof.Machine.execWaitUntilEnd e s
  | .resultDelivery e => Sys2Proof.Machine.execResultDelivery e s
  | .fabricResponse e => Sys2Proof.Machine.execFabricResponse e s
  | .fabricTransaction d port => Sys2Proof.Machine.execFabricTransaction d port s
  | .eccTrackerExpiry d bank word => Sys2Proof.Machine.execEccTrackerExpiry d bank word s
  | .retirementRecord d => Sys2Proof.Machine.execRetirementRecord d s
  | .pageWalk w va => Sys2Proof.Machine.execPageWalk w va s
  | .cacheFill e instr => Sys2Proof.Machine.execCacheFill e instr s
  | .storeBufferDrain e => Sys2Proof.Machine.execStoreBufferDrain e s
  | .ildataBufferWrite e => Sys2Proof.Machine.execIldataBufferWrite e s
  | .vectorPowerDown e => Sys2Proof.Machine.execVectorPowerDown e s
  | .vectorWakeDone e => Sys2Proof.Machine.execVectorWakeDone e s
  | .exceptionEntry e => Sys2Proof.Machine.execExceptionEntry e s
  | .capwaitResponse e => Sys2Proof.Machine.execCapwaitResponse e s
  | .add e u v => Sys2Proof.Machine.execAdd e u v s
  | .sub e u v => Sys2Proof.Machine.execSub e u v s
  | .neg e u v => Sys2Proof.Machine.execNeg e u v s
  | .adds e u v => Sys2Proof.Machine.execAdds e u v s
  | .subs e u v => Sys2Proof.Machine.execSubs e u v s
  | .negs e u v => Sys2Proof.Machine.execNegs e u v s
  | .addt e u v => Sys2Proof.Machine.execAddt e u v s
  | .subt e u v => Sys2Proof.Machine.execSubt e u v s
  | .negt e u v => Sys2Proof.Machine.execNegt e u v s
  | .abs e u v => Sys2Proof.Machine.execAbs e u v s
  | .abss e u v => Sys2Proof.Machine.execAbss e u v s
  | .and e u v => Sys2Proof.Machine.execAnd e u v s
  | .or e u v => Sys2Proof.Machine.execOr e u v s
  | .xor e u v => Sys2Proof.Machine.execXor e u v s
  | .andn e u v => Sys2Proof.Machine.execAndn e u v s
  | .nor e u v => Sys2Proof.Machine.execNor e u v s
  | .shl e u v => Sys2Proof.Machine.execShl e u v s
  | .shr e u v => Sys2Proof.Machine.execShr e u v s
  | .sar e u v => Sys2Proof.Machine.execSar e u v s
  | .rol e u v => Sys2Proof.Machine.execRol e u v s
  | .ror e u v => Sys2Proof.Machine.execRor e u v s
  | .min e u v => Sys2Proof.Machine.execMin e u v s
  | .max e u v => Sys2Proof.Machine.execMax e u v s
  | .minu e u v => Sys2Proof.Machine.execMinu e u v s
  | .maxu e u v => Sys2Proof.Machine.execMaxu e u v s
  | .cmpeq e u v => Sys2Proof.Machine.execCmpeq e u v s
  | .cmpne e u v => Sys2Proof.Machine.execCmpne e u v s
  | .cmplt e u v => Sys2Proof.Machine.execCmplt e u v s
  | .cmple e u v => Sys2Proof.Machine.execCmple e u v s
  | .cmpltu e u v => Sys2Proof.Machine.execCmpltu e u v s
  | .cmpleu e u v => Sys2Proof.Machine.execCmpleu e u v s
  | .pass e u v => Sys2Proof.Machine.execPass e u v s
  | .sxb e u v => Sys2Proof.Machine.execSxb e u v s
  | .sxh e u v => Sys2Proof.Machine.execSxh e u v s
  | .zxb e u v => Sys2Proof.Machine.execZxb e u v s
  | .zxh e u v => Sys2Proof.Machine.execZxh e u v s
  | .mul e v => Sys2Proof.Machine.execMul e v s
  | .mulhs e v => Sys2Proof.Machine.execMulhs e v s
  | .mulhu e v => Sys2Proof.Machine.execMulhu e v s
  | .mult e v => Sys2Proof.Machine.execMult e v s
  | .muls e v => Sys2Proof.Machine.execMuls e v s
  | .mac e v => Sys2Proof.Machine.execMac e v s
  | .macs e v => Sys2Proof.Machine.execMacs e v s
  | .mulq31 e v => Sys2Proof.Machine.execMulq31 e v s
  | .mulq15 e v => Sys2Proof.Machine.execMulq15 e v s
  | .divs e v => Sys2Proof.Machine.execDivs e v s
  | .divu e v => Sys2Proof.Machine.execDivu e v s
  | .divss e v => Sys2Proof.Machine.execDivss e v s
  | .divt e v => Sys2Proof.Machine.execDivt e v s
  | .divut e v => Sys2Proof.Machine.execDivut e v s
  | .ext e v => Sys2Proof.Machine.execExt e v s
  | .exts e v => Sys2Proof.Machine.execExts e v s
  | .ins e v => Sys2Proof.Machine.execIns e v s
  | .clz e v => Sys2Proof.Machine.execClz e v s
  | .ctz e v => Sys2Proof.Machine.execCtz e v s
  | .popc e v => Sys2Proof.Machine.execPopc e v s
  | .bswap e v => Sys2Proof.Machine.execBswap e v s
  | .brev e v => Sys2Proof.Machine.execBrev e v s
  | .perm e v => Sys2Proof.Machine.execPerm e v s
  | .jump e v => Sys2Proof.Machine.execJump e v s
  | .jumpr e v => Sys2Proof.Machine.execJumpr e v s
  | .call e v => Sys2Proof.Machine.execCall e v s
  | .callr e v => Sys2Proof.Machine.execCallr e v s
  | .ret e => Sys2Proof.Machine.execRet e s
  | .loop e v => Sys2Proof.Machine.execLoop e v s
  | .sysgate e v => Sys2Proof.Machine.execSysgate e v s
  | .rte e => Sys2Proof.Machine.execRte e s
  | .ldb e v => Sys2Proof.Machine.execLdb e v s
  | .ldbu e v => Sys2Proof.Machine.execLdbu e v s
  | .ldh e v => Sys2Proof.Machine.execLdh e v s
  | .ldhu e v => Sys2Proof.Machine.execLdhu e v s
  | .ldw e v => Sys2Proof.Machine.execLdw e v s
  | .ldHr e v => Sys2Proof.Machine.execLdHr e v s
  | .ldWr e v => Sys2Proof.Machine.execLdWr e v s
  | .stb e v => Sys2Proof.Machine.execStb e v s
  | .sth e v => Sys2Proof.Machine.execSth e v s
  | .stw e v => Sys2Proof.Machine.execStw e v s
  | .in_ e v => Sys2Proof.Machine.execIn e v s
  | .out e v => Sys2Proof.Machine.execOut e v s
  | .rdw e v => Sys2Proof.Machine.execRdw e v s
  | .wrw e v => Sys2Proof.Machine.execWrw e v s
  | .nowlo e => Sys2Proof.Machine.execNowlo e s
  | .nowhi e => Sys2Proof.Machine.execNowhi e s
  | .waitu e v => Sys2Proof.Machine.execWaitu e v s
  | .setl e v => Sys2Proof.Machine.execSetl e v s
  | .sysRd e v => Sys2Proof.Machine.execSysRd e v s
  | .wrAstat e v => Sys2Proof.Machine.execWrAstat e v s
  | .wrSsp e v => Sys2Proof.Machine.execWrSsp e v s
  | .wrSbase e v => Sys2Proof.Machine.execWrSbase e v s
  | .wrSlimit e v => Sys2Proof.Machine.execWrSlimit e v s
  | .vadd e z v => Sys2Proof.Machine.execVadd e z v s
  | .vsub e z v => Sys2Proof.Machine.execVsub e z v s
  | .vadds e z v => Sys2Proof.Machine.execVadds e z v s
  | .vsubs e z v => Sys2Proof.Machine.execVsubs e z v s
  | .vmul e z v => Sys2Proof.Machine.execVmul e z v s
  | .vmulq e z v => Sys2Proof.Machine.execVmulq e z v s
  | .vmac e z v => Sys2Proof.Machine.execVmac e z v s
  | .vmacq e z v => Sys2Proof.Machine.execVmacq e z v s
  | .vmin e z v => Sys2Proof.Machine.execVmin e z v s
  | .vmax e z v => Sys2Proof.Machine.execVmax e z v s
  | .vshl e z v => Sys2Proof.Machine.execVshl e z v s
  | .vshr e z v => Sys2Proof.Machine.execVshr e z v s
  | .vsar e z v => Sys2Proof.Machine.execVsar e z v s
  | .vcmpeq e z v => Sys2Proof.Machine.execVcmpeq e z v s
  | .vcmplt e z v => Sys2Proof.Machine.execVcmplt e z v s
  | .vcmpltu e z v => Sys2Proof.Machine.execVcmpltu e z v s
  | .vand e v => Sys2Proof.Machine.execVand e v s
  | .vor e v => Sys2Proof.Machine.execVor e v s
  | .vxor e v => Sys2Proof.Machine.execVxor e v s
  | .vsel e v => Sys2Proof.Machine.execVsel e v s
  | .vsplatb e v => Sys2Proof.Machine.execVsplatb e v s
  | .vsplath e v => Sys2Proof.Machine.execVsplath e v s
  | .vsplatw e v => Sys2Proof.Machine.execVsplatw e v s
  | .vwsxbh e v => Sys2Proof.Machine.execVwsxbh e v s
  | .vwsxhw e v => Sys2Proof.Machine.execVwsxhw e v s
  | .vnsh e v => Sys2Proof.Machine.execVnsh e v s
  | .vnsw e v => Sys2Proof.Machine.execVnsw e v s
  | .vrsumb e v => Sys2Proof.Machine.execVrsumb e v s
  | .vrsumh e v => Sys2Proof.Machine.execVrsumh e v s
  | .vrsumw e v => Sys2Proof.Machine.execVrsumw e v s
  | .vrmaxh e v => Sys2Proof.Machine.execVrmaxh e v s
  | .vrpopc e v => Sys2Proof.Machine.execVrpopc e v s
  | .vld e v => Sys2Proof.Machine.execVld e v s
  | .vldD e v => Sys2Proof.Machine.execVldD e v s
  | .vldm e v => Sys2Proof.Machine.execVldm e v s
  | .vst e v => Sys2Proof.Machine.execVst e v s
  | .vstD e v => Sys2Proof.Machine.execVstD e v s
  | .vstm e v => Sys2Proof.Machine.execVstm e v s
  | .vld2 e z v => Sys2Proof.Machine.execVld2 e z v s
  | .vld3 e z v => Sys2Proof.Machine.execVld3 e z v s
  | .vld4 e z v => Sys2Proof.Machine.execVld4 e z v s
  | .vgather e z v => Sys2Proof.Machine.execVgather e z v s
  | .vlds e z v => Sys2Proof.Machine.execVlds e z v s
  | .vscatter e z v => Sys2Proof.Machine.execVscatter e z v s
  | .registerWrite m t v => Sys2Proof.Machine.execRegisterWrite m t v s
  | .rcRead m t => Sys2Proof.Machine.execRcRead m t s
  | .nowLoRead m => Sys2Proof.Machine.execNowLoRead m s
  | .lastLoRead m e => Sys2Proof.Machine.execLastLoRead m e s
  | .timestampRead m n k => Sys2Proof.Machine.execTimestampRead m n k s
  | .iqPop m e q => Sys2Proof.Machine.execIqPop m e q s
  | .iqWordPush m e q v => Sys2Proof.Machine.execIqWordPush m e q v s
  | .iqPush e q ws => Sys2Proof.Machine.execIqPush e q ws s
  | .btbFlush m e v => Sys2Proof.Machine.execBtbFlush m e v s
  | .imageCheck m e v => Sys2Proof.Machine.execImageCheck m e v s
  | .ildataWrite m e v => Sys2Proof.Machine.execIldataWrite m e v s
  | .vecWake m e v => Sys2Proof.Machine.execVecWake m e v s
  | .pinon m e v => Sys2Proof.Machine.execPinon m e v s
  | .bankGive m e v => Sys2Proof.Machine.execBankGive m e v s
  | .reclaim m e bank => Sys2Proof.Machine.execReclaim m e bank s
  | .reclaimComplete e bank => Sys2Proof.Machine.execReclaimComplete e bank s
  | .iinv m e => Sys2Proof.Machine.execIinv m e s
  | .dinv m e => Sys2Proof.Machine.execDinv m e s
  | .skinkBorrow g j bank => Sys2Proof.Machine.execSkinkBorrow g j bank s
  | .skinkWordTest g => Sys2Proof.Machine.execSkinkWordTest g s
  | .excCtlWrite m e v => Sys2Proof.Machine.execExcCtlWrite m e v s
  | .doorbell m e v => Sys2Proof.Machine.execDoorbell m e v s
  | .timerFire t => Sys2Proof.Machine.execTimerFire t s
  | .claim m d r => Sys2Proof.Machine.execClaim m d r s
  | .release m d r => Sys2Proof.Machine.execRelease m d r s
  | .dinTsEnable m n i_ => Sys2Proof.Machine.execDinTsEnable m n i_ s
  | .dinTsDisable m n i_ => Sys2Proof.Machine.execDinTsDisable m n i_ s
  | .latMeasEnable m n l => Sys2Proof.Machine.execLatMeasEnable m n l s
  | .latMeasDisable m n => Sys2Proof.Machine.execLatMeasDisable m n s
  | .decInEdge k rising => Sys2Proof.Machine.execDecInEdge k rising s
  | .decStageWrite m k v => Sys2Proof.Machine.execDecStageWrite m k v s
  | .fineDelayApply k => Sys2Proof.Machine.execFineDelayApply k s
  | .timedCommitGo m v => Sys2Proof.Machine.execTimedCommitGo m v s
  | .arm src => Sys2Proof.Machine.execArm src s
  | .unitAcknowledge u => Sys2Proof.Machine.execUnitAcknowledge u s
  | .commitAck src => Sys2Proof.Machine.execCommitAck src s
  | .commitNak src => Sys2Proof.Machine.execCommitNak src s
  | .commitAbort src => Sys2Proof.Machine.execCommitAbort src s
  | .ackDeadline => Sys2Proof.Machine.execAckDeadline s
  | .commitApply u => Sys2Proof.Machine.execCommitApply u s
  | .engStartWrite m e v => Sys2Proof.Machine.execEngStartWrite m e v s
  | .engSnapAccess m e off w => Sys2Proof.Machine.execEngSnapAccess m e off w s
  | .propose m v => Sys2Proof.Machine.execPropose m v s
  | .confirm m v => Sys2Proof.Machine.execConfirm m v s
  | .larkTimeout => Sys2Proof.Machine.execLarkTimeout s
  | .valueInForce => Sys2Proof.Machine.execValueInForce s
  | .worldClear e => Sys2Proof.Machine.execWorldClear e s
  | .seal m v => Sys2Proof.Machine.execSeal m v s
  | .mint m v => Sys2Proof.Machine.execMint m v s
  | .bind s_ => Sys2Proof.Machine.execBind s_ s
  | .hostRequest s_ x write len data => Sys2Proof.Machine.execHostRequest s_ x write len data s
  | .hostRing m v => Sys2Proof.Machine.execHostRing m v s
  | .dmaCtxWrite m d n w v => Sys2Proof.Machine.execDmaCtxWrite m d n w v s
  | .iommuInvalidate m d v => Sys2Proof.Machine.execIommuInvalidate m d v s
  | .iommuInvDone d => Sys2Proof.Machine.execIommuInvDone d s
  | .dmaGo m c v => Sys2Proof.Machine.execDmaGo m c v s
  | .dmaResume m c => Sys2Proof.Machine.execDmaResume m c s
  | .dmaAbort m c => Sys2Proof.Machine.execDmaAbort m c s
  | .dmaPause m d v => Sys2Proof.Machine.execDmaPause m d v s
  | .descriptorFetch c => Sys2Proof.Machine.execDescriptorFetch c s
  | .dmaBurst c => Sys2Proof.Machine.execDmaBurst c s
  | .ptBaseWrite m e v => Sys2Proof.Machine.execPtBaseWrite m e v s
  | .tlbInv m e v => Sys2Proof.Machine.execTlbInv m e v s
  | .slotEntryWrite m d b port i_ v => Sys2Proof.Machine.execSlotEntryWrite m d b port i_ v s
  | .engMapWrite m d b k v => Sys2Proof.Machine.execEngMapWrite m d b k v s
  | .routeEntryWrite m l k w v => Sys2Proof.Machine.execRouteEntryWrite m l k w v s
  | .quadEnable m q v => Sys2Proof.Machine.execQuadEnable m q v s
  | .quadDisable m q v => Sys2Proof.Machine.execQuadDisable m q v s
  | .laneSchedWrite m l v => Sys2Proof.Machine.execLaneSchedWrite m l v s
  | .chanMaskClear m d l => Sys2Proof.Machine.execChanMaskClear m d l s
  | .laneBitLock l => Sys2Proof.Machine.execLaneBitLock l s
  | .boundaryFound l => Sys2Proof.Machine.execBoundaryFound l s
  | .laneAligned l => Sys2Proof.Machine.execLaneAligned l s
  | .hello l b => Sys2Proof.Machine.execHello l b s
  | .helloTransmit l => Sys2Proof.Machine.execHelloTransmit l s
  | .syncHeaderLoss l => Sys2Proof.Machine.execSyncHeaderLoss l s
  | .failedRetrain l => Sys2Proof.Machine.execFailedRetrain l s
  | .retrainWaitExpiry l => Sys2Proof.Machine.execRetrainWaitExpiry l s
  | .dataBlock l b => Sys2Proof.Machine.execDataBlock l b s
  | .nakTimerExpiry l s_ => Sys2Proof.Machine.execNakTimerExpiry l s_ s
  | .releasePoint l => Sys2Proof.Machine.execReleasePoint l s
  | .routedGroupSend n => Sys2Proof.Machine.execRoutedGroupSend n s
  | .laneMapWrite => Sys2Proof.Machine.execLaneMapWrite s
  | .d2dBlock d p seq b => Sys2Proof.Machine.execD2dBlock d p seq b s
  | .d2dLockLoss d p => Sys2Proof.Machine.execD2dLockLoss d p s
  | .d2dRetrainDone d p => Sys2Proof.Machine.execD2dRetrainDone d p s
  | .d2dRetry d p => Sys2Proof.Machine.execD2dRetry d p s
  | .chainPortEnable m p v => Sys2Proof.Machine.execChainPortEnable m p v s
  | .chainPortUp p => Sys2Proof.Machine.execChainPortUp p s
  | .chainPortDown p => Sys2Proof.Machine.execChainPortDown p s
  | .chainPortRetry p => Sys2Proof.Machine.execChainPortRetry p s
  | .setDeviceId m v => Sys2Proof.Machine.execSetDeviceId m v s
  | .sendSetid m v => Sys2Proof.Machine.execSendSetid m v s
  | .setid p k => Sys2Proof.Machine.execSetid p k s
  | .rd p k => Sys2Proof.Machine.execRd p k s
  | .wr p k => Sys2Proof.Machine.execWr p k s
  | .rdrsp p k => Sys2Proof.Machine.execRdrsp p k s
  | .wrrsp p k => Sys2Proof.Machine.execWrrsp p k s
  | .chainResponseTimeout reqid => Sys2Proof.Machine.execChainResponseTimeout reqid s
  | .vc1Delivery p => Sys2Proof.Machine.execVc1Delivery p s
  | .timeReq p k => Sys2Proof.Machine.execTimeReq p k s
  | .timeRsp p k => Sys2Proof.Machine.execTimeRsp p k s
  | .timeExchange => Sys2Proof.Machine.execTimeExchange s
  | .calibrationDone => Sys2Proof.Machine.execCalibrationDone s
  | .recalibration => Sys2Proof.Machine.execRecalibration s
  | .calibrationTimeout => Sys2Proof.Machine.execCalibrationTimeout s
  | .phaseSlew => Sys2Proof.Machine.execPhaseSlew s
  | .stop p k => Sys2Proof.Machine.execStop p k s
  | .reductionWord p w => Sys2Proof.Machine.execReductionWord p w s
  | .reductionLocal m c v => Sys2Proof.Machine.execReductionLocal m c v s
  | .reductionDeadline c tag => Sys2Proof.Machine.execReductionDeadline c tag s
  | .exprefPresent hz => Sys2Proof.Machine.execExprefPresent hz s
  | .multiplierLock => Sys2Proof.Machine.execMultiplierLock s
  | .exprefLost => Sys2Proof.Machine.execExprefLost s
  | .helCfgWrite m v => Sys2Proof.Machine.execHelCfgWrite m v s
  | .epochLoad m v => Sys2Proof.Machine.execEpochLoad m v s
  | .hitInputWrite m g ws strobe => Sys2Proof.Machine.execHitInputWrite m g ws strobe s
  | .hitWord g => Sys2Proof.Machine.execHitWord g s
  | .endMarker g => Sys2Proof.Machine.execEndMarker g s
  | .nullWord g => Sys2Proof.Machine.execNullWord g s
  | .invalidWord g => Sys2Proof.Machine.execInvalidWord g s
  | .roadOutput g => Sys2Proof.Machine.execRoadOutput g s
  | .outputHoldRelease g => Sys2Proof.Machine.execOutputHoldRelease g s
  | .patternWrite m g p ws strobe => Sys2Proof.Machine.execPatternWrite m g p ws strobe s
  | .segmentOnlineRequest m g s_ => Sys2Proof.Machine.execSegmentOnlineRequest m g s_ s
  | .segmentCheckDone g s_ => Sys2Proof.Machine.execSegmentCheckDone g s_ s
  | .segmentOfflineRequest m g s_ => Sys2Proof.Machine.execSegmentOfflineRequest m g s_ s
  | .foxCtlWrite m g v => Sys2Proof.Machine.execFoxCtlWrite m g v s
  | .patternScrub g => Sys2Proof.Machine.execPatternScrub g s
  | .thermalSample codes => Sys2Proof.Machine.execThermalSample codes s
  | .thermalTrip codes => Sys2Proof.Machine.execThermalTrip codes s
  | .tripClear m => Sys2Proof.Machine.execTripClear m s
  | .i2cIndexWrite index => Sys2Proof.Machine.execI2cIndexWrite index s
  | .i2cRead => Sys2Proof.Machine.execI2cRead s
  | .extest => Sys2Proof.Machine.execExtest s
  | .samplePreload cells => Sys2Proof.Machine.execSamplePreload cells s
  | .idcode => Sys2Proof.Machine.execIdcode s
  | .clamp => Sys2Proof.Machine.execClamp s
  | .highz => Sys2Proof.Machine.execHighz s
  | .extestPulse => Sys2Proof.Machine.execExtestPulse s
  | .extestTrain => Sys2Proof.Machine.execExtestTrain s
  | .readyscan => Sys2Proof.Machine.execReadyscan s
  | .bypass => Sys2Proof.Machine.execBypass s
  | .pcieLinkUp => Sys2Proof.Machine.execPcieLinkUp s
  | .pcieLinkDown => Sys2Proof.Machine.execPcieLinkDown s
  | .tapReset => Sys2Proof.Machine.execTapReset s

end Sys2Proof.Machine
end

