-- ==== Sys2Proof/Safety.lean ====
section
/-!
DEFINITION. Safety.lean: the terms in which claims about the block are stated: an engine at rest at an open schedule cycle, a
register access that the checks admit, and the invariant of every step.
-/
namespace Sys2Proof.Machine

/-- Engine e runs, its present schedule cycle is open for an issue, and nothing holds or precedes that issue: no operation in
flight, no trap, error or interrupt due, no wait or return under way, no write that port B holds, no late direct write, the
vector unit awake, the hazard detector silent, and no throttle (Table 2-4, R174, R346 to R349). -/
structure Quiet (s : State) (e : EngineId) : Prop where
  running  : (s.eng e).running = true
  cycle    : (s.eng e).cycleOpen = true
  inflight : (s.eng e).inflight = []
  owed     : (s.eng e).owed = []
  capErr   : (s.eng e).capErr = none
  capWait  : (s.eng e).capWait = false
  waitTo   : (s.eng e).waitTo = none
  returning : (s.eng e).returning = none
  portB    : (s.eng e).portB = []
  vrDirect : (s.eng e).vrDirect = 0
  seqBusy  : (s.eng e).seqBusy = 0
  holdDue  : (s.eng e).holdDue = 0
  came     : (s.eng e).came = []
  ilBuf    : (s.eng e).ilBuf = none
  vpwr     : (s.eng e).vpwr = .on
  haz      : (s.eng e).hazOn = false
  irq      : (s.eng e).intEvent = none
  free     : s.throttledOut e = false

/-- What the issue of one operation leaves of an engine: every register, queue and memory but operand and result ports, the
records of the pipeline and of the bank ports, and what the passing of one ec may change (time, delayed register writes, vector
power, predictors). -/
def Engine.rest (g : Engine) : Engine :=
  { g with
    units := .replicate 16 {}, haz := {}, hazExempt := false, inflight := [], opId := 0, launchWait := false, walked := none,
    cycleOpen := false, bubbles := 0, holdDue := 0, seqBusy := 0, bankAt := .replicate 16 0, ec := 0, late := [], btb := [],
    rstack := [], vidle := 0, vpwr := .on, vwake := 0, tlb := [], throttle := 0, ahead := 0, readyAt := .replicate 16 0, tables := [],
    vtrig := false, vdue := false, fetched := 0, iw := [], activeB := false, entryFrame := none }

/-- Operation o is alone in flight on engine e, whose schedule cycle is over: nothing holds the next one, and the operation has no
fault and uses at most one bank port in each cycle. -/
structure Alone (s : State) (e : EngineId) (o : Op) : Prop where
  running : (s.eng e).running = true
  cycle   : (s.eng e).cycleOpen = false
  bubbles : (s.eng e).bubbles = 0
  holdDue : (s.eng e).holdDue = 0
  portB   : (s.eng e).portB = []
  only    : (s.eng e).inflight = [o]
  uses    : (o.uses.map (·.1)).Nodup
  sound   : o.fault = none

/-- From s to t, operation o of unit u has started on engine e with trigger value v and nothing else has changed: it is the one
operation in flight, its operand port holds v, no result port has changed, and the schedule cycle is over (R35, R42); two stall
ec are due where an `lsu` access is split (R118). -/
structure Started (s t : State) (e : EngineId) (u n : Nat) (v : Vec) (o : Op) : Prop where
  only     : t = { s with engines := s.engines.set e (t.eng e) }
  rest     : { (t.eng e).rest with pc := 0 } = { (s.eng e).rest with pc := 0 }
  inflight : (t.eng e).inflight = [o]
  closed   : (t.eng e).cycleOpen = false ∧ (t.eng e).bubbles = 0
  hold     : (t.eng e).holdDue = if u = 9 ∧ lsuCrosses n (v.setWidth 32) = true then 2 else 0
  kind     : o.unit = u ∧ o.opcode = n
  fresh    : o.age = 0 ∧ o.pc = (s.eng e).pc ∧ o.nt = false ∧ o.fault = none
  others   : ∀ j, j ≠ u → (t.eng e).unit j = (s.eng e).unit j
  results  : ((t.eng e).unit u).q = ((s.eng e).unit u).q ∧ ((t.eng e).unit u).q1 = ((s.eng e).unit u).q1
  operand  : ∀ p, lastPort u n = some p → (t.eng e).readSock u p = v
  standing : ∀ p, p ≤ 2 → lastPort u n ≠ some p → (t.eng e).readSock u p = (s.eng e).readSock u p

/-- The bytes [a, a + n) of engine e's data space are those at local address x of its own scratchpad, for an access of a kind:
it is translated without a walk, the banks are its own, Skink has none of them, and no word has an error to correct. -/
structure OwnAt (s : State) (e : EngineId) (a n acc x : Nat) : Prop where
  xlat  : ∃ sel, s.engXlat e a n acc (s.eng e).sup = (.ok (s.devId * 2 ^ 31 + x, sel), none)
  here  : spadEngine x = some e
  walk  : (s.eng e).needsWalk a = false
  banks : ∀ b ∈ banksOf x n, s.bankAdmits e b (.eng e) = true ∧ s.borrowed e b = false
  clean : s.ecc = []

/-- What a frame gives a program back and a transfer leaves alone: register files, flags, mode and level, stack registers. -/
def Engine.file (g : Engine) : Vector Word 32 × Vector Vec 16 × Vector Pred 8 × BitVec 4 × Fin 12 × World × Word × Word × Word :=
  (g.gr, g.vr, g.pr, g.astat, g.mode, g.world, g.ssp, g.sbase, g.slimit)

/-- The word at an offset of an engine's own scratchpad. -/
def State.ownWord (s : State) (e : EngineId) (off : Nat) : Word := BitVec.ofNat 32 (memNat s.mem (ownAddr e off) 4)

/-- An entry with this stack pointer puts its frame on the stack (R352), in bank 0 or 1, which only the engine's own units use,
and no word of the memory has an error to correct. -/
structure StackOk (s : State) (e : EngineId) (ssp : Nat) : Prop where
  aligned : ssp % 64 = 0
  above   : (s.eng e).slimit.toNat + 64 ≤ ssp
  below   : ssp ≤ (s.eng e).sbase.toNat
  bank    : ssp ≤ 0x8000
  small   : (s.eng e).sbase.toNat < 2 ^ 19
  clean   : s.ecc = []
  free    : ∀ b, s.borrowed e b = false

/-- From s to t, engine e has entered a handler (R351 to R358): the frame stands in the 64 bytes under `ssp`, no other byte of
the memory has changed, the exception registers say why, and the engine runs the handler at supervisor level with interrupts
off and nothing in flight. -/
structure Entered (s t : State) (e : EngineId) (ssp : Nat) (cause : Nat) (cdetail faddr ret : Word) (handler : Nat) : Prop where
  codes   : (t.eng e).cause = cause ∧ (t.eng e).cdetail = cdetail ∧ (t.eng e).faddr = faddr
  place   : (t.eng e).pc = BitVec.ofNat 32 handler ∧ (t.eng e).ssp = BitVec.ofNat 32 (ssp - 64)
  level   : (t.eng e).sup = true ∧ (t.eng e).ie = false ∧ (t.eng e).depth = (s.eng e).depth + 1
  empty   : (t.eng e).inflight = [] ∧ (t.eng e).owed = [] ∧ (t.eng e).repLeft = none ∧ (t.eng e).waitTo = none
  frame   : (List.range 8).map (fun i => if i = 1 then 0 else t.ownWord e (ssp - 64 + 4 * i)) =
    [ret, 0, BitVec.ofNat 32 cause, cdetail, faddr, (s.eng e).lc, (s.eng e).ssp, 0]
  status  : fld (t.ownWord e (ssp - 60)) 10 0 = fld (s.eng e).statWord 10 0
  pending : ∀ i, 8 ≤ i → i < 16 → t.ownWord e (ssp - 64 + 4 * i) = 0
  memory  : ∀ a, a < ownAddr e (ssp - 64) ∨ ownAddr e ssp ≤ a → memByte t.mem a = memByte s.mem a
  kept    : (t.eng e).gr = (s.eng e).gr ∧ (t.eng e).vr = (s.eng e).vr ∧ (t.eng e).pr = (s.eng e).pr ∧
    (t.eng e).units = (s.eng e).units ∧ (t.eng e).lc = (s.eng e).lc ∧ (t.eng e).ra = (s.eng e).ra ∧
    (t.eng e).astat = (s.eng e).astat ∧ (t.eng e).mode = (s.eng e).mode

/-- Master m may write register t now: it reaches it, no write held at the target port is ahead of it, and the checks of R123,
R374 and R429 admit it. -/
structure MayWrite (s : State) (m : Master) (t : Target) (r : RegInfo) : Prop where
  reaches : s.reaches m t true = (none, s)
  ahead   : s.behindHeld (accessOf s m) t = false
  admits  : s.regCheck (accessOf s m) t true = .ok r

/-- Master m may read register t now. -/
structure MayRead (s : State) (m : Master) (t : Target) (r : RegInfo) : Prop where
  reaches : s.reaches m t false = (none, s)
  admits  : s.regCheck (accessOf s m) t false = .ok r

/-- From s to t, register p of engine e has taken the value v, the command is answered, and nothing else has changed but the
list of writes that are not yet in force. -/
structure IoWritten (s t : State) (e : EngineId) (p : Nat) (v : Word) : Prop where
  only   : t = { s with engines := s.engines.set e (t.eng e), resp := .ok 0 }
  value  : (t.eng e).ioGet p = v
  others : ∀ q, q ≠ p → (t.eng e).ioGet q = (s.eng e).ioGet q
  kept   : { t.eng e with io := [], late := [] } = { s.eng e with io := [], late := [] }

/-- From s to t, register p of die d has taken the value v, the command is answered, and nothing else has changed. -/
structure DieWritten (s t : State) (d : DieId) (p : Nat) (v : Word) : Prop where
  only   : t = { s with dies := s.dies.set d (t.die d), resp := .ok 0 }
  value  : t.dGet d p = v
  others : ∀ q, q ≠ p → t.dGet d q = s.dGet d q
  kept   : { t.die d with regs := [] } = { s.die d with regs := [] }

/-- From s to t, nothing has changed but engine e. -/
def OnlyEngine (s t : State) (e : EngineId) : Prop := t = { s with engines := s.engines.set e (t.eng e) }

/-- The engine issues no second bundle in an ec: a deterministic mode, or dual issue off (R70). -/
def Engine.single (g : Engine) : Prop := throughput g.mode = false ∨ g.diEn = false

/-- The byte of a write of n bytes at x with strobes, for address y; none where the write leaves it alone. -/
def strobed (x n strobe data y : Nat) : Option Byte :=
  if x ≤ y ∧ y < x + n ∧ strobe.testBit (y - x) = true then some (BitVec.ofNat 8 (data / 2 ^ (8 * (y - x)))) else none

/-- The n bytes at local address x lie in one Pool bank that answers, and no word of the memory has an error to correct. -/
structure PoolAt (s : State) (x n : Nat) : Prop where
  bank  : ∃ k b, place x n = some (.pool k b) ∧ s.bankReady k b = true ∧ (s.die (geckoDie k)).mode ≠ 0 ∧
    (s.dGet (geckoDie k) 0x4010).getLsbD b = false
  clean : s.ecc = []

/-- Nothing else asks the fabric in the present fc, no target port has granted in it or is reserved, and every die-to-die link is
up and whole; `who` is the engine whose requests are not counted. -/
structure FabricIdle (s : State) (who : Option EngineId) : Prop where
  beats  : s.beats = []
  groups : ∀ n : Fin 2, s.groups[n] = []
  links  : ∀ (d : DieId) (p : Fin 6), (s.die d).d2d[p].down = false ∧ (s.die d).d2d[p].waiting = false
  grants : ∀ (d : DieId) (t : Nat), smGet (fun _ => 0) (s.die d).granted t ≠ s.fc + 1
  free   : ∀ (d : DieId) (t : Nat), s.reservedFor d t = none
  others : ∀ f : EngineId, who ≠ some f → (s.eng f).fabQ = []

/-- From s to t the target ports of a way have granted in the present fc; of the dies nothing else has changed but the record of
the last winners (R317, R319). -/
structure Granted (s t : State) (way : List (DieId × Nat)) : Prop where
  dies  : ∀ d, { t.die d with granted := [], lastWin := [] } = { s.die d with granted := [], lastWin := [] }
  ports : ∀ d p, smGet (fun _ => 0) (t.die d).granted p =
    if (d, p) ∈ way then s.fc + 1 else smGet (fun _ => 0) (s.die d).granted p

/-- The pins without the record of what the decision outputs did in the present reference period and the last one (R240). -/
def Pins.still (p : Pins) : Pins := { p with outLevel := 0, outMoved := 0, outQuiet := 0, fineNew := 0 }

/-- From s to t time has moved on or been set: engine e is as `g` says but for the ec that it is ahead (log 76), which are no more,
and for what port B did in an ec that is over; the Foxglove of a Gecko that does not gate its clock is as it was. -/
def TimeOnly (s t : State) (g : EngineId → Engine) : Prop :=
  t.pins.still = s.pins.still ∧ (∀ f : GeckoId, (s.die (geckoDie f)).mode ≠ 0 → t.fox[f] = s.fox[f]) ∧
  ∀ e, { t.eng e with ahead := 0, portB := [] } = { g e with ahead := 0, portB := [] } ∧ (t.eng e).ahead ≤ (s.eng e).ahead

/-- A packet of VC0 of one kind arrives on port p: port up, CRC good, form as R303 and R306 ask. -/
structure Arrives (s : State) (p : PortId) (k : Packet) (kind : Nat) : Prop where
  good  : pktGood k = true
  up    : s.ports[p].up = true
  kind  : k.kind.toNat = kind
  plain : k.vc = 0 ∧ k.tok = none
  len   : k.len.toNat = k.data.length ∧ k.data.length ≤ 11

/-- A chain port that has sent a packet: it stands in the replay buffer, which keeps the last 32 (R309). -/
def ChainPort.sent (x : ChainPort) (q : Packet) : ChainPort :=
  { x with tx := x.tx ++ [q], replay := (x.replay ++ [q]).drop (x.replay.length - 31) }

/-- Memory and calibration store are in canonical form. -/
def State.Inv (s : State) : Prop := s.mem.wf = true ∧ s.cal.wf = true

end Sys2Proof.Machine
end

