-- ==== Sys2Proof/Safety/Results.lean ====
section
/-!
DEFINITION. Safety/Results.lean: the results and flags that Tables 4-1 to 4-4, 5-2 and 5-3 give the operations of the computing
units, written as arithmetic on numbers, one row for each operation, as the statements use them.
-/
namespace Sys2Proof.Machine

/-! ## alu0 and alu1 (Table 4-1, R104 to R107) -/

/-- A row: the command, the opcode, the result and the flags for ports a and b. -/
structure AluRow where
  cmd    : EngineId → Fin 2 → Word → Instr
  code   : Nat
  result : Word → Word → Word
  flags  : Word → Word → Flags := fun _ _ => 0
  traps  : Bool := false

/-- A number that no signed 32-bit word holds. -/
def outside32 (x : Int) : Bool := decide (x < -2147483648) || decide (2147483647 < x)
/-- A number clamped to the signed words. -/
def clamp32 (x : Int) : Word := BitVec.ofInt 32 (max (-2147483648) (min 2147483647 x))
/-- All ones or zero. -/
def allOnesIf (p : Prop) [Decidable p] : Word := if p then 0xFFFFFFFF#32 else 0#32
/-- V alone, SAT alone. -/
def flagV (b : Bool) : Flags := if b then 1#4 else 0#4
def flagSat (b : Bool) : Flags := if b then 8#4 else 0#4

def aluRows : List AluRow := [
  { cmd := .add, code := 0, result := fun a b => BitVec.ofNat 32 (a.toNat + b.toNat)
    flags := fun a b => flagV (outside32 (a.toInt + b.toInt)) ||| (if 0xFFFFFFFF < a.toNat + b.toNat then 2#4 else 0#4) },
  { cmd := .sub, code := 1, result := fun a b => BitVec.ofInt 32 (a.toNat - b.toNat)
    flags := fun a b => flagV (outside32 (a.toInt - b.toInt)) ||| (if a.toNat < b.toNat then 2#4 else 0#4) },
  { cmd := .neg, code := 2, result := fun _ b => BitVec.ofInt 32 (-b.toInt)
    flags := fun _ b => flagV (b = 0x80000000#32) },
  { cmd := .adds, code := 3, result := fun a b => clamp32 (a.toInt + b.toInt)
    flags := fun a b => flagSat (outside32 (a.toInt + b.toInt)) },
  { cmd := .subs, code := 4, result := fun a b => clamp32 (a.toInt - b.toInt)
    flags := fun a b => flagSat (outside32 (a.toInt - b.toInt)) },
  { cmd := .negs, code := 5, result := fun _ b => clamp32 (-b.toInt)
    flags := fun _ b => flagSat (outside32 (-b.toInt)) },
  { cmd := .addt, code := 6, result := fun a b => BitVec.ofNat 32 (a.toNat + b.toNat), traps := true
    flags := fun a b => flagV (outside32 (a.toInt + b.toInt)) ||| (if 0xFFFFFFFF < a.toNat + b.toNat then 2#4 else 0#4) },
  { cmd := .subt, code := 7, result := fun a b => BitVec.ofInt 32 (a.toNat - b.toNat), traps := true
    flags := fun a b => flagV (outside32 (a.toInt - b.toInt)) ||| (if a.toNat < b.toNat then 2#4 else 0#4) },
  { cmd := .negt, code := 8, result := fun _ b => BitVec.ofInt 32 (-b.toInt), traps := true
    flags := fun _ b => flagV (b = 0x80000000#32) },
  { cmd := .abs, code := 9, result := fun _ b => BitVec.ofInt 32 b.toInt.natAbs, flags := fun _ b => flagV (b = 0x80000000#32) },
  { cmd := .abss, code := 10, result := fun _ b => clamp32 b.toInt.natAbs, flags := fun _ b => flagSat (b = 0x80000000#32) }] ++ [
  { cmd := .and, code := 11, result := fun a b => BitVec.ofNat 32 (a.toNat &&& b.toNat) },
  { cmd := .or, code := 12, result := fun a b => BitVec.ofNat 32 (a.toNat ||| b.toNat) },
  { cmd := .xor, code := 13, result := fun a b => BitVec.ofNat 32 (a.toNat ^^^ b.toNat) },
  { cmd := .andn, code := 14, result := fun a b => BitVec.ofNat 32 (a.toNat &&& (0xFFFFFFFF - b.toNat)) },
  { cmd := .nor, code := 15, result := fun a b => BitVec.ofNat 32 (0xFFFFFFFF - (a.toNat ||| b.toNat)) },
  { cmd := .shl, code := 16, result := fun a b => BitVec.ofNat 32 (a.toNat * 2 ^ (b.toNat % 256)) },
  { cmd := .shr, code := 17, result := fun a b => BitVec.ofNat 32 (a.toNat / 2 ^ (b.toNat % 256)) },
  { cmd := .sar, code := 18, result := fun a b => BitVec.ofInt 32 (a.toInt / 2 ^ (b.toNat % 256)) },
  { cmd := .rol, code := 19
    result := fun a b => let k := b.toNat % 32; BitVec.ofNat 32 (a.toNat * 2 ^ k + a.toNat / 2 ^ (32 - k)) },
  { cmd := .ror, code := 20
    result := fun a b => let k := b.toNat % 32; BitVec.ofNat 32 (a.toNat / 2 ^ k + a.toNat * 2 ^ (32 - k)) }] ++ [
  { cmd := .min, code := 21, result := fun a b => BitVec.ofInt 32 (min a.toInt b.toInt) },
  { cmd := .max, code := 22, result := fun a b => BitVec.ofInt 32 (max a.toInt b.toInt) },
  { cmd := .minu, code := 23, result := fun a b => BitVec.ofNat 32 (min a.toNat b.toNat) },
  { cmd := .maxu, code := 24, result := fun a b => BitVec.ofNat 32 (max a.toNat b.toNat) },
  { cmd := .cmpeq, code := 25, result := fun a b => allOnesIf (a.toNat = b.toNat) },
  { cmd := .cmpne, code := 26, result := fun a b => allOnesIf (a.toNat ≠ b.toNat) },
  { cmd := .cmplt, code := 27, result := fun a b => allOnesIf (a.toInt < b.toInt) },
  { cmd := .cmple, code := 28, result := fun a b => allOnesIf (a.toInt ≤ b.toInt) },
  { cmd := .cmpltu, code := 29, result := fun a b => allOnesIf (a.toNat < b.toNat) },
  { cmd := .cmpleu, code := 30, result := fun a b => allOnesIf (a.toNat ≤ b.toNat) },
  { cmd := .pass, code := 31, result := fun _ b => b },
  { cmd := .sxb, code := 32, result := fun _ b => BitVec.ofInt 32 ((b.toNat % 128 : Nat) - (if b.toNat % 256 < 128 then 0 else 128)) },
  { cmd := .sxh, code := 33
    result := fun _ b => BitVec.ofInt 32 ((b.toNat % 32768 : Nat) - (if b.toNat % 65536 < 32768 then 0 else 32768)) },
  { cmd := .zxb, code := 34, result := fun _ b => BitVec.ofNat 32 (b.toNat % 256) },
  { cmd := .zxh, code := 35, result := fun _ b => BitVec.ofNat 32 (b.toNat % 65536) }]

/-! ## mul (Table 4-2, R108, R109) -/

/-- A row: the command, the opcode, the result and flags for ports a, b and c; whether the trigger carries c. -/
structure MulRow where
  cmd    : EngineId → Word → Instr
  code   : Nat
  result : Word → Word → Word → Word
  flags  : Word → Word → Word → Flags := fun _ _ _ => 0
  viaC   : Bool := false
  traps  : Bool := false

/-- The integer nearest to p / d, the even one of two. -/
def nearest (p d : Int) : Int :=
  let lo := p / d
  if 2 * (p % d) < d ∨ (2 * (p % d) = d ∧ lo % 2 = 0) then lo else lo + 1
/-- The low 16 bits as a signed number. -/
def low16 (a : Word) : Int := (a.setWidth 16).toInt
/-- A number clamped to 16 signed bits. -/
def clamp16 (x : Int) : Int := max (-32768) (min 32767 x)

def mulRows : List MulRow := [
  { cmd := .mul, code := 0, result := fun a b _ => BitVec.ofNat 32 (a.toNat * b.toNat) },
  { cmd := .mulhs, code := 1, result := fun a b _ => BitVec.ofInt 32 (a.toInt * b.toInt / 4294967296) },
  { cmd := .mulhu, code := 2, result := fun a b _ => BitVec.ofNat 32 (a.toNat * b.toNat / 4294967296) },
  { cmd := .mult, code := 3, result := fun a b _ => BitVec.ofNat 32 (a.toNat * b.toNat), traps := true
    flags := fun a b _ => flagV (outside32 (a.toInt * b.toInt)) },
  { cmd := .muls, code := 4, result := fun a b _ => clamp32 (a.toInt * b.toInt)
    flags := fun a b _ => flagSat (outside32 (a.toInt * b.toInt)) },
  { cmd := .mac, code := 5, result := fun a b c => BitVec.ofNat 32 (c.toNat + a.toNat * b.toNat), viaC := true },
  { cmd := .macs, code := 6, result := fun a b c => clamp32 (c.toInt + a.toInt * b.toInt), viaC := true
    flags := fun a b c => flagSat (outside32 (c.toInt + a.toInt * b.toInt)) },
  { cmd := .mulq31, code := 7, result := fun a b _ => clamp32 (nearest (a.toInt * b.toInt) 2147483648)
    flags := fun a b _ => flagSat (a = 0x80000000#32 ∧ b = 0x80000000#32) },
  { cmd := .mulq15, code := 8, result := fun a b _ => BitVec.ofInt 32 (clamp16 (nearest (low16 a * low16 b) 32768))
    flags := fun a b _ => flagSat (low16 a = -32768 ∧ low16 b = -32768) }]

/-! ## div (Table 4-3, R110, R111) -/

/-- A row: the command, the opcode, the results and flags for ports a and b, and the flags on which it traps. -/
structure DivRow where
  cmd   : EngineId → Word → Instr
  code  : Nat
  quot  : Word → Word → Word
  rem   : Word → Word → Word
  flags : Word → Word → Flags
  traps : Flags := 0

/-- The quotient truncated toward zero, and the remainder with it. -/
def signedQuot (a b : Word) : Word :=
  if b = 0 then 0xFFFFFFFF#32 else BitVec.ofInt 32 (a.toInt.sign * b.toInt.sign * (a.toInt.natAbs / b.toInt.natAbs : Nat))
def signedRem (a b : Word) : Word := if b = 0 then a else BitVec.ofInt 32 (a.toInt.sign * (a.toInt.natAbs % b.toInt.natAbs : Nat))
def unsignedQuot (a b : Word) : Word := if b = 0 then 0xFFFFFFFF#32 else BitVec.ofNat 32 (a.toNat / b.toNat)
def unsignedRem (a b : Word) : Word := if b = 0 then a else BitVec.ofNat 32 (a.toNat % b.toNat)
/-- DZ alone. -/
def flagDz (b : Word) : Flags := if b = 0 then 4#4 else 0#4

def divRows : List DivRow := [
  { cmd := .divs, code := 0, quot := signedQuot, rem := signedRem
    flags := fun a b => flagDz b ||| flagV (a = 0x80000000#32 ∧ b = 0xFFFFFFFF#32) },
  { cmd := .divu, code := 1, quot := unsignedQuot, rem := unsignedRem, flags := fun _ b => flagDz b },
  { cmd := .divss, code := 2, rem := signedRem
    quot := fun a b => if a = 0x80000000#32 ∧ b = 0xFFFFFFFF#32 then 0x7FFFFFFF#32 else signedQuot a b
    flags := fun a b => flagDz b ||| flagSat (a = 0x80000000#32 ∧ b = 0xFFFFFFFF#32) },
  { cmd := .divt, code := 3, quot := signedQuot, rem := signedRem, traps := 5#4
    flags := fun a b => flagDz b ||| flagV (a = 0x80000000#32 ∧ b = 0xFFFFFFFF#32) },
  { cmd := .divut, code := 4, quot := unsignedQuot, rem := unsignedRem, flags := fun _ b => flagDz b, traps := 4#4 }]

/-! ## bfu (Table 4-4, R113, R114) -/

/-- A row: the command, the opcode, and the bit i of the result for ports a, b and c. -/
structure BfuRow where
  cmd  : EngineId → Word → Instr
  code : Nat
  bit  : Word → Word → Word → Nat → Bool

/-- POS and the effective width of a control word. -/
def ctlPos (b : Word) : Nat := b.toNat % 32
def ctlWidth (b : Word) : Nat := min (b.toNat / 256 % 64) (32 - ctlPos b)
/-- Bit i of the field of a. -/
def fieldBit (a b : Word) (i : Nat) : Bool := decide (i < ctlWidth b) && a.getLsbD (ctlPos b + i)
/-- Bit i of the byte that a nibble of `perm` selects. -/
def permBit (a b c : Word) (i : Nat) : Bool :=
  let n := b.toNat / 16 ^ (i / 8) % 16
  if 8 ≤ n then false else if n < 4 then a.getLsbD (8 * n + i % 8) else c.getLsbD (8 * (n - 4) + i % 8)
/-- Leading zeros, trailing zeros and ones of a word. -/
def leadingZeros (b : Word) : Nat := ((List.range 33).find? fun k => decide (2 ^ (32 - k) ≤ 2 * b.toNat)).getD 32
def trailingZeros (b : Word) : Nat := ((List.range 32).find? fun k => b.getLsbD k).getD 32
def onesCount (b : Word) : Nat := ((List.range 32).filter fun k => b.getLsbD k).length

def bfuRows : List BfuRow := [
  { cmd := .ext, code := 0, bit := fun a b _ i => fieldBit a b i },
  { cmd := .exts, code := 1
    bit := fun a b _ i => if ctlWidth b = 0 then false else fieldBit a b (min i (ctlWidth b - 1)) },
  { cmd := .ins, code := 2
    bit := fun a b c i => if ctlPos b ≤ i ∧ i < ctlPos b + ctlWidth b then c.getLsbD (i - ctlPos b) else a.getLsbD i },
  { cmd := .clz, code := 3, bit := fun _ b _ i => (leadingZeros b).testBit i },
  { cmd := .ctz, code := 4, bit := fun _ b _ i => (trailingZeros b).testBit i },
  { cmd := .popc, code := 5, bit := fun _ b _ i => (onesCount b).testBit i },
  { cmd := .bswap, code := 6, bit := fun _ b _ i => b.getLsbD (8 * (3 - i / 8) + i % 8) },
  { cmd := .brev, code := 7, bit := fun _ b _ i => b.getLsbD (31 - i) },
  { cmd := .perm, code := 8, bit := permBit }]

/-! ## vec (Tables 5-2 and 5-3, R139 to R143) -/

/-- A row of Table 5-2: the command, k, the exact result of an element before it is cut or clamped to n bits, whether it is
clamped, whether it is a compare, its class, whether the trigger carries c. -/
structure VecRow where
  cmd   : EngineId → VSize → Vec → Instr
  code  : Nat
  elem  : (n : Nat) → (a b c : BitVec n) → Int
  sat   : Bool := false
  cls   : Nat := 10
  viaC  : Bool := false

/-- The rows whose results are elements. -/
def vecRows : List VecRow := [
  { cmd := .vadd, code := 0, elem := fun _ a b _ => a.toInt + b.toInt },
  { cmd := .vsub, code := 1, elem := fun _ a b _ => a.toInt - b.toInt },
  { cmd := .vadds, code := 2, elem := fun _ a b _ => a.toInt + b.toInt, sat := true },
  { cmd := .vsubs, code := 3, elem := fun _ a b _ => a.toInt - b.toInt, sat := true },
  { cmd := .vmul, code := 4, elem := fun _ a b _ => a.toInt * b.toInt, cls := 11 },
  { cmd := .vmulq, code := 5, elem := fun n a b _ => nearest (a.toInt * b.toInt) (2 ^ (n - 1)), sat := true, cls := 11 },
  { cmd := .vmac, code := 6, elem := fun _ a b c => c.toInt + a.toInt * b.toInt, cls := 11, viaC := true },
  { cmd := .vmacq, code := 7, elem := fun n a b c => c.toInt + nearest (a.toInt * b.toInt) (2 ^ (n - 1)), sat := true,
    cls := 11, viaC := true },
  { cmd := .vmin, code := 8, elem := fun _ a b _ => min a.toInt b.toInt },
  { cmd := .vmax, code := 9, elem := fun _ a b _ => max a.toInt b.toInt },
  { cmd := .vshl, code := 10, elem := fun _ a b _ => a.toInt * 2 ^ (b.toNat % 256) },
  { cmd := .vshr, code := 11, elem := fun _ a b _ => (a.toNat / 2 ^ (b.toNat % 256) : Nat) },
  { cmd := .vsar, code := 12, elem := fun _ a b _ => a.toInt / 2 ^ (b.toNat % 256) }]
/-- The compares: the relation on elements (R139). -/
def vcmpRows : List ((EngineId → VSize → Vec → Instr) × Nat × ((n : Nat) → (a b : BitVec n) → Bool)) := [
  (.vcmpeq, 13, fun _ a b => decide (a.toNat = b.toNat)),
  (.vcmplt, 14, fun _ a b => decide (a.toInt < b.toInt)),
  (.vcmpltu, 15, fun _ a b => decide (a.toNat < b.toNat))]

/-- Latency of a class on A1 or in MD8, and on B0 otherwise (R99): add, multiply, reduction. -/
def vecLatency (old : Bool) (cls : Nat) : Nat := if cls = 10 then 2 else if cls = 11 then (if old then 4 else 3) else 6
/-- The latencies of A1 apply to an engine (R99). -/
def oldLatencies (s : State) (e : EngineId) : Bool := decide ((s.eng e).mode = 8) || decide (Config.stepping = .A1)

/-- The value clamped to n signed bits, and whether that changes it. -/
def clampTo (n : Nat) (x : Int) : Int := max (-(2 ^ (n - 1))) (min (2 ^ (n - 1) - 1) x)
/-- Element i of n bits of a vector. -/
def elemAt (n : Nat) (x : Vec) (i : Nat) : BitVec n := x.extractLsb' (n * i) n

/-- A row of Table 5-3 whose result has elements of w bits: the command, opcode, exact element results (below `count`, the
elements above are 0), whether they are clamped. -/
structure WideRow where
  cmd   : EngineId → Vec → Instr
  code  : Nat
  width : Nat
  count : Nat
  elem  : (a b c : Vec) → Nat → Int
  sat   : Bool := false
  cls   : Nat := 10
  viaC  : Bool := false

/-- Sum over the first n numbers. -/
def sumTo (f : Nat → Int) : Nat → Int
  | 0 => 0
  | n + 1 => sumTo f n + f n
/-- Largest over the first n + 1 numbers. -/
def maxTo (f : Nat → Int) : Nat → Int
  | 0 => f 0
  | n + 1 => max (maxTo f n) (f (n + 1))

def wideRows : List WideRow := [
  { cmd := .vand, code := 48, width := 1, count := 128, elem := fun a b _ i => if a.getLsbD i ∧ b.getLsbD i then 1 else 0 },
  { cmd := .vor, code := 49, width := 1, count := 128, elem := fun a b _ i => if a.getLsbD i ∨ b.getLsbD i then 1 else 0 },
  { cmd := .vxor, code := 50, width := 1, count := 128, elem := fun a b _ i => if a.getLsbD i ≠ b.getLsbD i then 1 else 0 },
  { cmd := .vsel, code := 51, width := 8, count := 16, viaC := true
    elem := fun a b c j => (elemAt 8 (if c.getLsbD j then b else a) j).toNat },
  { cmd := .vsplatb, code := 52, width := 8, count := 16, elem := fun _ b _ _ => (elemAt 8 b 0).toNat },
  { cmd := .vsplath, code := 53, width := 16, count := 8, elem := fun _ b _ _ => (elemAt 16 b 0).toNat },
  { cmd := .vsplatw, code := 54, width := 32, count := 4, elem := fun _ b _ _ => (elemAt 32 b 0).toNat },
  { cmd := .vwsxbh, code := 55, width := 16, count := 8, elem := fun _ b _ i => (elemAt 8 b i).toInt },
  { cmd := .vwsxhw, code := 56, width := 32, count := 4, elem := fun _ b _ i => (elemAt 16 b i).toInt }] ++ [
  { cmd := .vnsh, code := 57, width := 8, count := 8, elem := fun _ b _ i => (elemAt 16 b i).toInt, sat := true },
  { cmd := .vnsw, code := 58, width := 16, count := 4, elem := fun _ b _ i => (elemAt 32 b i).toInt, sat := true },
  { cmd := .vrsumb, code := 59, width := 32, count := 1, cls := 12
    elem := fun _ b _ _ => sumTo (fun i => (elemAt 8 b i).toNat) 16 },
  { cmd := .vrsumh, code := 60, width := 32, count := 1, cls := 12
    elem := fun _ b _ _ => sumTo (fun i => (elemAt 16 b i).toInt) 8 },
  { cmd := .vrsumw, code := 61, width := 32, count := 1, cls := 12, sat := true
    elem := fun _ b _ _ => sumTo (fun i => (elemAt 32 b i).toInt) 4 },
  { cmd := .vrmaxh, code := 62, width := 32, count := 1, cls := 12
    elem := fun _ b _ _ => maxTo (fun i => (elemAt 16 b i).toInt) 7 },
  { cmd := .vrpopc, code := 63, width := 32, count := 1, cls := 12
    elem := fun _ b _ _ => sumTo (fun i => if b.getLsbD i then 1 else 0) 128 }]

/-! ## lsu (Table 4-5) -/

/-- A load: the command, the opcode, the value of the bytes from the (for the rotating forms aligned) address on, and of the
address modulo 4. -/
structure LoadRow where
  cmd   : EngineId → Word → Instr
  code  : Nat
  value : (Nat → Byte) → Nat → Word

def loadRows : List LoadRow := [
  { cmd := .ldb, code := 0, value := fun m _ => (m 0).signExtend 32 },
  { cmd := .ldbu, code := 1, value := fun m _ => (m 0).setWidth 32 },
  { cmd := .ldh, code := 2, value := fun m _ => (m 1 ++ m 0).signExtend 32 },
  { cmd := .ldhu, code := 3, value := fun m _ => (m 1 ++ m 0).setWidth 32 },
  { cmd := .ldw, code := 4, value := fun m _ => m 3 ++ m 2 ++ m 1 ++ m 0 },
  { cmd := .ldHr, code := 5, value := fun m a => (m ((1 + a) % 2) ++ m (a % 2)).setWidth 32 },
  { cmd := .ldWr, code := 6, value := fun m a => m ((3 + a) % 4) ++ m ((2 + a) % 4) ++ m ((1 + a) % 4) ++ m (a % 4) }]

/-- The stores: command, opcode, bytes. -/
def storeRows : List ((EngineId → Word → Instr) × Nat × Nat) := [(.stb, 8, 1), (.sth, 9, 2), (.stw, 10, 4)]

/-- Byte j of a number. -/
def byteOf (v j : Nat) : Byte := BitVec.ofNat 8 (v / 256 ^ j)

end Sys2Proof.Machine
end

