-- ==== Sys2Proof/Certificates/Slice0/Obligations.lean ====
section
/-!
DEFINITION. Certificates/Slice0/Obligations.lean: the statements for the provers.
-/
open Sys2Proof Sys2Proof.Machine

/-! ## Operations of the computing units -/

/-- R104 to R107, R103, R98: on an engine whose next schedule cycle is open, an operation of `alu0` or `alu1` starts with its
trigger value in port b; its result, flags and trap are those of Table 4-1, due one cycle later; no other port, register, flag
or byte of memory changes. The model's choice in it: an operation row is that operation triggered alone in a
bundle (log 6). -/
def Obligations.alu_results : Prop :=
  ∀ (s : State) (e : EngineId) (u : Fin 2) (b : Word), Quiet s e → ∀ r ∈ aluRows,
    let a : Word := ((s.eng e).unit (3 + u.val)).a.setWidth 32
    ∃ t o, exec (r.cmd e u b) s = .next t ∧ Started s t e (3 + u.val) r.code (b.setWidth 128) o ∧
      o.act = .writeQ ∧ o.lat = 1 ∧ o.q = (r.result a b).setWidth 128 ∧ o.flags = r.flags a b ∧
      o.trapAt = if r.traps && (r.flags a b).getLsbD 0 then some 1 else none

/-- R108, R109, R103, R99: the operations of `mul`; the trigger of `mac` and `macs` carries c, every other one b. The model's
choice in it: an operation row is that operation triggered alone in a bundle (log 6). -/
def Obligations.mul_results : Prop :=
  ∀ (s : State) (e : EngineId) (v : Word), Quiet s e → ∀ r ∈ mulRows,
    let p := (s.eng e).unit 5
    let a : Word := p.a.setWidth 32
    let b : Word := if r.viaC then p.b.setWidth 32 else v
    let c : Word := if r.viaC then v else p.c.setWidth 32
    ∃ t o, exec (r.cmd e v) s = .next t ∧ Started s t e 5 r.code (v.setWidth 128) o ∧
      o.act = .writeQ ∧ o.lat = (if oldLatencies s e then 3 else 2) ∧
      o.q = (r.result a b c).setWidth 128 ∧ o.flags = r.flags a b c ∧
      o.trapAt = if r.traps && (r.flags a b c).getLsbD 0 then some o.lat else none

/-- R110 to R112, R103: the operations of `div`: quotient and remainder, due 34 cycles later; each is a long operation. The
model's choice in it: an operation row is that operation triggered alone in a bundle (log 6). -/
def Obligations.div_results : Prop :=
  ∀ (s : State) (e : EngineId) (b : Word), Quiet s e → ∀ r ∈ divRows,
    let a : Word := ((s.eng e).unit 6).a.setWidth 32
    ∃ t o, exec (r.cmd e b) s = .next t ∧ Started s t e 6 r.code (b.setWidth 128) o ∧
      o.act = .writeQQ ∧ o.lat = 34 ∧ o.long = 1 ∧ o.q = (r.quot a b).setWidth 128 ∧ o.q1 = (r.rem a b).setWidth 128 ∧
      o.flags = r.flags a b ∧ o.trapAt = if r.traps &&& r.flags a b = 0 then none else some 1

/-- R113, R114: the operations of `bfu`, bit by bit; `perm` takes 2 cycles, the others 1; none sets a flag. The model's choice in
it: an operation row is that operation triggered alone in a bundle (log 6). -/
def Obligations.bfu_results : Prop :=
  ∀ (s : State) (e : EngineId) (b : Word), Quiet s e → ∀ r ∈ bfuRows,
    let p := (s.eng e).unit 7
    ∃ t o, exec (r.cmd e b) s = .next t ∧ Started s t e 7 r.code (b.setWidth 128) o ∧
      o.act = .writeQ ∧ o.lat = (if r.code = 8 then 2 else 1) ∧ o.flags = 0 ∧ o.trapAt = none ∧
      ∀ i, o.q.getLsbD i = (decide (i < 32) && r.bit (p.a.setWidth 32) b (p.c.setWidth 32) i)

/-- R139, R140, R142, R143: the sized vector operations: those with element results, each element on its own; a compare delivers
a byte-lane mask. The model's choice in it: an operation row is that operation triggered alone in a
bundle (log 6). -/
def Obligations.vec_elements : Prop :=
  (∀ (s : State) (e : EngineId) (z : VSize) (v : Vec), Quiet s e → ∀ r ∈ vecRows,
    let p := (s.eng e).unit 11
    let n := vsBits z
    let b := if r.viaC then p.b else v
    let c := if r.viaC then v else p.c
    let exact (i : Nat) : Int := r.elem n (elemAt n p.a i) (elemAt n b i) (elemAt n c i)
    ∃ t o, exec (r.cmd e z v) s = .next t ∧ Started s t e 11 (16 * vsCode z + r.code) v o ∧
      o.act = .writeQ ∧ o.lat = vecLatency (oldLatencies s e) r.cls ∧ o.trapAt = none ∧
      (∀ i, i < vsCount z → elemAt n o.q i = BitVec.ofInt n (if r.sat then clampTo n (exact i) else exact i)) ∧
      o.flags = flagSat (decide (r.sat ∧ ∃ i, i < vsCount z ∧ clampTo n (exact i) ≠ exact i))) ∧
  ∀ (s : State) (e : EngineId) (z : VSize) (b : Vec), Quiet s e → ∀ r ∈ vcmpRows,
    let a := ((s.eng e).unit 11).a
    let n := vsBits z
    ∃ t o, exec (r.1 e z b) s = .next t ∧ Started s t e 11 (16 * vsCode z + r.2.1) b o ∧
      o.act = .writeQ ∧ o.lat = 2 ∧ o.flags = 0 ∧ o.trapAt = none ∧
      ∀ j, o.q.getLsbD j =
        (decide (j < 16) && r.2.2 n (elemAt n a (j / vsBytes z)) (elemAt n b (j / vsBytes z)))

/-- R141, R142, R136: the vector operations of Table 5-3; lanes above those of the result are 0. The model's choice in it: an
operation row is that operation triggered alone in a bundle (log 6). -/
def Obligations.vec_plain : Prop :=
  ∀ (s : State) (e : EngineId) (v : Vec), Quiet s e → ∀ r ∈ wideRows,
    let p := (s.eng e).unit 11
    let b := if r.viaC then p.b else v
    let c := if r.viaC then v else p.c
    let exact (i : Nat) : Int := r.elem p.a b c i
    ∃ t o, exec (r.cmd e v) s = .next t ∧ Started s t e 11 r.code v o ∧
      o.act = .writeQ ∧ o.lat = vecLatency (oldLatencies s e) r.cls ∧ o.trapAt = none ∧
      (∀ i, i < 128 / r.width → elemAt r.width o.q i =
        if i < r.count then BitVec.ofInt r.width (if r.sat then clampTo r.width (exact i) else exact i) else 0) ∧
      o.flags = flagSat (decide (r.sat ∧ ∃ i, i < r.count ∧ clampTo r.width (exact i) ≠ exact i))

/-! ## Delivery -/

/-- R49, R37, R38, R101, R367: an operation in flight that delivers a result does so in the schedule cycle in which its age
reaches its latency, and sets its flags with it; before that only its age rises. A trap condition that becomes known is owed
from then on, with the distance, place and flags of its operation. -/
def Obligations.result_delivery : Prop :=
  ∀ (s : State) (e : EngineId) (o : Op), let g := s.eng e
    Alone s e o → g.owed = [] → 3 ≤ o.unit → o.unit < 16 → o.age < o.lat → (o.act = .writeQ ∨ o.act = .writeQQ) →
    ∃ t, exec (.resultDelivery e) s = .next t ∧ OnlyEngine s t e ∧
      ((t.eng e).owed = if o.trapAt = some (o.age + 1) then
        [{ id := o.id, age := 0, dist := o.dist, pc := o.pc, unit := o.unit, opcode := o.opcode, slot := o.slot, flags := o.flags }]
        else []) ∧
      (t.eng e).cycleOpen = true ∧ (t.eng e).pc = g.pc ∧ (t.eng e).lc = g.lc ∧ (t.eng e).ra = g.ra ∧
      (t.eng e).gr = g.gr ∧ (t.eng e).vr = g.vr ∧ (t.eng e).pr = g.pr ∧
      (o.age + 1 < o.lat → (t.eng e).inflight = [{ o with age := o.age + 1 }] ∧ (t.eng e).units = g.units ∧
        (t.eng e).astat = g.astat) ∧
      (o.age + 1 = o.lat → (t.eng e).inflight = [] ∧ (t.eng e).astat = g.astat ||| o.flags ∧
        (t.eng e).unit o.unit = { g.unit o.unit with
          q := o.q &&& portMask o.unit 3
          q1 := if o.act = .writeQQ then o.q1 &&& portMask o.unit 3 else (g.unit o.unit).q1 } ∧
        ∀ j, j ≠ o.unit → (t.eng e).unit j = g.unit j)

/-- R102, R132, R125, R236: writes of sys registers, of the instruction space and of the launch register take effect when they
fall due, and not before. -/
def Obligations.late_effects : Prop :=
  (∀ (s : State) (e : EngineId) (o : Op), let g := s.eng e
    Alone s e o → s.ecc = [] → o.age + 1 = o.lat →
    (∀ w, o.act = .sysWr 1 w → ∃ t, exec (.resultDelivery e) s = .next t ∧ (t.eng e).astat = g.astat &&& ~~~(w.setWidth 4)) ∧
    (∀ w, o.act = .sysWr 5 w → ∃ t, exec (.resultDelivery e) s = .next t ∧ (t.eng e).ssp.toNat = w.toNat % 2 ^ 19) ∧
    (∀ w, o.act = .sysWr 6 w → ∃ t, exec (.resultDelivery e) s = .next t ∧ (t.eng e).sbase.toNat = w.toNat % 2 ^ 19) ∧
    (∀ w, o.act = .sysWr 7 w → ∃ t, exec (.resultDelivery e) s = .next t ∧ (t.eng e).slimit.toNat = w.toNat % 2 ^ 19) ∧
    (∀ k w, k < 0x8000 → o.act = .ixuWr k w → ∃ t, exec (.resultDelivery e) s = .next t ∧
      (t.eng e).imemGet k = w ∧ ∀ j, j ≠ k → (t.eng e).imemGet j = g.imemGet j) ∧
    (∀ k, 3 ≤ o.unit → o.unit < 16 → o.act = .ixuRd k → ∃ t, exec (.resultDelivery e) s = .next t ∧
      ((t.eng e).unit o.unit).q = (g.imemGet k).setWidth 128) ∧
    (∀ w, o.act = .setl w → ∃ t, exec (.resultDelivery e) s = .next t ∧ (t.eng e).launch = w)) ∧
  ∀ (s : State) (e : EngineId) (o : Op), let g := s.eng e
    Alone s e o → o.age + 1 < o.lat →
    ((∃ n w, o.act = .sysWr n w) ∨ (∃ k w, o.act = .ixuWr k w) ∨ (∃ k, o.act = .ixuRd k) ∨ ∃ w, o.act = .setl w) →
    ∃ t, exec (.resultDelivery e) s = .next t ∧ OnlyEngine s t e ∧ (t.eng e).inflight = [{ o with age := o.age + 1 }] ∧
      (t.eng e).file = g.file ∧ (t.eng e).launch = g.launch ∧ (t.eng e).imem = g.imem ∧ (t.eng e).units = g.units

/-! ## Control operations -/

/-- R58, R56, R60: jumps, calls, returns and loops. The model's choices in it: an operation row is that operation triggered
alone in a bundle (log 6). -/
def Obligations.control_transfers : Prop :=
  ∀ (s : State) (e : EngineId) (v : Word), Quiet s e → let g := s.eng e
    ∀ r ∈ [(Instr.jump e v, some v, g.ra, g.lc), (.jumpr e v, some (g.pc + v), g.ra, g.lc),
        (.call e v, some v, g.pc + 1, g.lc), (.callr e v, some (g.pc + v), g.pc + 1, g.lc), (.ret e, some g.ra, g.ra, g.lc),
        (.loop e v, if g.lc = 1 then none else some v, g.ra, g.lc - 1)],
      ∃ t, exec r.1 s = .next t ∧ t = { s with engines := s.engines.set e (t.eng e) } ∧
        (t.eng e).pc = (match r.2.1 with
          | some into => into
          | none => if g.pc.getLsbD 31 then g.pc &&& 0xFC000000#32 ||| BitVec.ofNat 32 ((g.pc.toNat + 1) % 2 ^ 26)
                    else BitVec.ofNat 32 ((g.pc.toNat + 1) % 0x1000)) ∧
        (t.eng e).ra = r.2.2.1 ∧ (t.eng e).lc = r.2.2.2 ∧ (t.eng e).bubbles = (if r.2.1.isSome then 2 else 0) ∧
        (t.eng e).cycleOpen = false ∧ (t.eng e).inflight = [] ∧ (t.eng e).file = g.file ∧
        ∀ j, j ≠ 8 → (t.eng e).unit j = g.unit j

/-! ## Entry and return -/

/-- R384 to R387: a gate call whose checks pass enters the handler that its descriptor names, with cause 0x10 and the gate
number, to return to the bundle after it (a gate without arguments, as its descriptor says); one whose checks fail enters the
vector base with cause 0x08 and the argument and reason, to return to the call itself. The same said of the state alone for a
Trigger-world engine whose table its Newt keeps in the engine's own scratchpad: a valid descriptor without arguments is called,
a number that the table does not have is refused. The model's choices in it: an operation row is that operation triggered alone
in a bundle (log 6); the order of gate reasons (log 45). -/
def Obligations.gate_calls : Prop :=
  (∀ (s : State) (e : EngineId) (v : Word), Quiet s e → StackOk s e (s.eng e).ssp.toNat → s.world e = .T →
    let g := s.eng e
    let off := fld (s.n0 0x7660) 17 4 * 16 + 16 * v.toNat
    let w (i : Nat) : Word := s.ownWord e (off + 4 * i)
    (v.toNat < fld (s.n0 0x7664) 8 0 → (s.n0 0x7660).getLsbD 31 = true → off + 16 ≤ 0x40000 →
      (∀ b ∈ banksOf (ownAddr e off) 16, s.bankAdmits e b (.eng e) = true) →
      (w 0).getLsbD 16 = true → ((w 0).getLsbD 17 = true ∨ g.sup = true) → fld (w 0) 15 12 = 0 → fld (w 0) 31 18 = 0 →
      fld (w 1) 31 19 = 0 → w 2 = 0 → fld (w 3) 31 16 = 0 →
      ∃ t, exec (.sysgate e v) s = .next t ∧
        Entered s t e g.ssp.toNat 0x10 (BitVec.ofNat 32 (v.toNat % 256)) 0 (g.pc + 1) (fld (w 0) 11 0)) ∧
    (fld (s.n0 0x7664) 8 0 ≤ v.toNat → ∃ t, exec (.sysgate e v) s = .next t ∧
      Entered s t e g.ssp.toNat 0x08 (BitVec.ofNat 32 (2 ^ 12 + v.toNat % 256)) g.pc g.pc (fld (g.ioGet 0x8C0) 27 16))) ∧
  (∀ (s : State) (e : EngineId) (v : Word) (d : List Word), Quiet s e → StackOk s e (s.eng e).ssp.toNat →
    s.gateAsk e v.toNat = none → ((s.gateWait e v.toNat).gateCheck e v.toNat).1 = .ok d →
    (d.getD 1 0).getLsbD 31 = false →
    ∃ t, exec (.sysgate e v) s = .next t ∧
      Entered s t e (s.eng e).ssp.toNat 0x10 (BitVec.ofNat 32 (v.toNat % 256)) 0 ((s.eng e).pc + 1) (fld (d.getD 0 0) 11 0)) ∧
  ∀ (s : State) (e : EngineId) (v : Word) (k r : Nat), Quiet s e → StackOk s e (s.eng e).ssp.toNat →
    s.gateAsk e v.toNat = none → ((s.gateWait e v.toNat).gateCheck e v.toNat).1 = .error (k, .fail r) →
    ∃ t, exec (.sysgate e v) s = .next t ∧
      Entered s t e (s.eng e).ssp.toNat 0x08 (BitVec.ofNat 32 (r * 2 ^ 12 + k * 2 ^ 8 + v.toNat % 256)) (s.eng e).pc
        (s.eng e).pc (fld ((s.eng e).ioGet 0x8C0) 27 16)

/-- R351 to R358, R364, R365: an entry for an event that is due: the shared operation, whatever the event. Its frame goes on the
stack; where SSP is not aligned to 64 it goes into the lowest free emergency slot, under cause 0x09; with no slot free the
engine enters MD11 with reason 1. Stated for an engine without an operation in flight; where traps are owed, each is due. -/
def Obligations.exception_entry : Prop :=
  ∀ (s : State) (e : EngineId) (v : Event), let g := s.eng e
    let handler := v.target.getD (fld (g.ioGet 0x8C0) 27 16)
    g.running = true → g.returning = none → g.cycleOpen = true → g.inflight = [] → (∀ x ∈ g.owed, 1 ≤ x.age) → g.capErr = none →
    (∃ w, s.next e = (.event v, s.modEng e fun h => { h with fetched := w })) → v.stack = none → v.rteBad = 0 →
    (StackOk s e g.ssp.toNat → ∃ t, exec (.exceptionEntry e) s = .next t ∧
      Entered s t e g.ssp.toNat v.cause v.cdetail v.faddr v.pc handler) ∧
    (g.ssp.toNat % 64 ≠ 0 → s.ecc = [] → ∃ t, exec (.exceptionEntry e) s = .next t ∧ let h := t.eng e
      let used := g.ioGet 0x8D8
      t.mem = s.mem ∧ h.cause = 9 ∧ h.ssp = g.ssp ∧ h.gr = g.gr ∧ h.vr = g.vr ∧ h.pr = g.pr ∧ h.ra = g.ra ∧
      (∀ k, k < 4 → used.getLsbD k = false → (∀ j, j < k → used.getLsbD j = true) →
        let cdetail := BitVec.ofNat 32 (k * 2 ^ 12) ||| 0x100#32 ||| BitVec.ofNat 32 v.cause
        h.cdetail = cdetail ∧ h.pc = BitVec.ofNat 32 handler ∧ h.sup = true ∧ h.ie = false ∧ h.depth = g.depth + 1 ∧
        h.mode = g.mode ∧ h.ioGet 0x8D8 = used ||| BitVec.ofNat 32 (2 ^ k) ∧
        (List.range 8).map (fun i => if i = 1 then 0 else h.ioGet (0x900 + 0x40 * k + 4 * i)) =
          [v.pc, 0, 9, cdetail, v.faddr, g.lc, g.ssp, 0]) ∧
      ((∀ k, k < 4 → used.getLsbD k = true) → h.mode = 11 ∧ h.ioGet 0xB30 = 1))

/-- R57, R367 to R369, R371, R372: what is due at an entry point: the arithmetic trap that is owed, in MD3 and MD5 with cause
0x0C, else with cause 0x0B and the number of bundles since its own up to 6; FADDR and CDETAIL say which operation of which bundle
raised which flags. Else, for a PC that the mode may not run, cause 0x06; else the lowest line that is pending and enabled, where
the bundle at the PC could issue. -/
def Obligations.entry_events : Prop :=
  ∀ (s : State) (e : EngineId), let g := s.eng e
    g.running = true → g.inflight = [] → g.capErr = none → s.throttledOut e = false →
    (∀ x : Owed, g.owed = [x] → 1 ≤ x.age →
      let precise := g.mode = 3 ∨ g.mode = 5
      ∃ v : Event, s.next e = (.event v, s) ∧ v.cause = (if precise then 0x0C else 0x0B) ∧ v.pc = g.pc ∧
        v.target = none ∧ v.stack = none ∧
        (x.unit < 16 → x.opcode < 64 → x.slot < 8 →
          fld v.faddr 3 0 = x.unit ∧ fld v.faddr 9 4 = x.opcode ∧ fld v.faddr 12 10 = x.slot ∧ fld v.faddr 16 13 = x.flags.toNat ∧
          fld v.faddr 31 17 = 0) ∧
        fld v.cdetail 25 0 = x.pc.toNat % 2 ^ 26 ∧ fld v.cdetail 30 28 = (if precise then 0 else min 6 x.dist) ∧
        v.cdetail.getLsbD 31 = x.pc.getLsbD 31) ∧
    (g.owed = [] → g.pc.getLsbD 31 = true → throughput g.mode = false → g.repLeft = none →
      s.next e = (.event { cause := 6, faddr := g.pc, cdetail := 0, pc := g.pc }, s)) ∧
    (∀ w n, s.fetch e = (.bundle w, s) → let b := decodeBundle w
      g.owed = [] → b.moves = [] → b.bad = none → b.priv = none → b.timed = false →
      g.waitTo = none → g.hazOn = false → g.ie = true → n < 32 →
      (g.ioGet 0x8CC &&& g.ioGet 0x8C4).getLsbD n = true → (∀ k, k < n → (g.ioGet 0x8CC &&& g.ioGet 0x8C4).getLsbD k = false) →
      s.next e = (.event { cause := 0x80 + n, faddr := 0, cdetail := 0, pc := g.pc }, s.modEng e fun h => { h with fetched := w }))

/-- R360 to R363: a return restores PC, flags, level, interrupt enable, loop count and stack pointer from the frame at SSP, and
frees it; a frame without pending words. The model's choices in it: an operation row is that operation triggered alone in a
bundle (log 6). -/
def Obligations.return_from_exception : Prop :=
  ∀ (s : State) (e : EngineId), Quiet s e → let g := s.eng e
    g.ssp.toNat % 64 = 0 → g.slimit.toNat ≤ g.ssp.toNat → g.ssp.toNat + 64 ≤ g.sbase.toNat → g.ssp.toNat + 64 ≤ 0x8000 →
    s.ecc = [] → (∀ b, s.borrowed e b = false) → g.sup = true → 0 < g.depth → g.late = [] →
    let w (i : Nat) : Word := s.ownWord e (g.ssp.toNat + 4 * i)
    (w 1).getLsbD 9 = (g.world == .H) → ((w 1).getLsbD 8 = true → 2 ≤ g.depth ∨ g.outerSup = true) →
    (∀ i, 8 ≤ i → i < 14 → (w i).getLsbD 31 = false) →
    ∃ t, exec (.rte e) s = .next t ∧ (t.eng e).pc = w 0 ∧ (t.eng e).astat = (w 1).setWidth 4 ∧
      (t.eng e).sup = (w 1).getLsbD 8 ∧ (t.eng e).ie = (w 1).getLsbD 10 ∧ (t.eng e).lc = w 5 ∧
      (t.eng e).ssp.toNat = (w 6).toNat % 2 ^ 19 ∧ (t.eng e).depth = g.depth - 1 ∧ t.mem = s.mem ∧
      (t.eng e).gr = g.gr ∧ (t.eng e).vr = g.vr ∧ (t.eng e).pr = g.pr ∧ (t.eng e).mode = g.mode ∧ (t.eng e).ra = g.ra

/-! ## Loads and stores -/

/-- R116 to R118, Table 4-5, Table 6-3: a load of the own scratchpad takes its bytes in the schedule cycle after its trigger, in two
accesses where it crosses a doubleword, which the two stall ec of the split make, and delivers 3 cycles after its trigger what Table
4-5 says of them. The model's choice in it: an operation row is that operation triggered alone in a bundle (log 6). -/
def Obligations.loads : Prop :=
  (∀ (s : State) (e : EngineId) (a : Word), Quiet s e → ∀ r ∈ loadRows, ∀ x0 x1 : Nat,
    let base := lsuBase r.code a
    let k := lsuFirst r.code a
    OwnAt s e base k accLoad x0 →
    (lsuCrosses r.code a = true → OwnAt s e ((base + k) % 2 ^ 32) (lsuBytes r.code - k) accLoad x1) →
    ∃ t o t', exec (r.cmd e a) s = .next t ∧ Started s t e 9 r.code (a.setWidth 128) o ∧ o.lat = 3 ∧ o.flags = 0 ∧ o.arg = a.toNat ∧
      exec (.resultDelivery e) t = .next t' ∧ t'.mem = s.mem ∧ (t'.eng e).units = (t.eng e).units ∧ (t'.eng e).file = (s.eng e).file ∧
      (t'.eng e).inflight = [{ o with age := 1, act := .seq true [] (memNat s.mem x0 k ::
        if lsuCrosses r.code a then [memNat s.mem x1 (lsuBytes r.code - k)] else []) }]) ∧
  ∀ (s : State) (e : EngineId) (o : Op) (got : List Nat), let g := s.eng e
    Alone s e o → o.unit = 9 → o.act = .seq true [] got → o.age + 1 = o.lat → ∀ r ∈ loadRows, o.opcode = r.code →
    let k := lsuFirst r.code (BitVec.ofNat 32 o.arg)
    got.getD 0 0 < 256 ^ k → got.getD 1 0 < 256 ^ (lsuBytes r.code - k) →
    ∃ t, exec (.resultDelivery e) s = .next t ∧ OnlyEngine s t e ∧ (t.eng e).inflight = [] ∧
      (t.eng e).unit 9 = { g.unit 9 with
        q := (r.value (fun j => if j < k then byteOf (got.getD 0 0) j else byteOf (got.getD 1 0) (j - k)) (o.arg % 4)).setWidth 128 } ∧
      (∀ j, j ≠ 9 → (t.eng e).unit j = g.unit j) ∧ (t.eng e).gr = g.gr ∧ (t.eng e).vr = g.vr ∧ (t.eng e).pr = g.pr

/-- R116, R118, R119, Table 6-3: a store to the own scratchpad writes its bytes in the schedule cycle after its trigger, and nothing
else. The model's choice in it: an operation row is that operation triggered alone in a bundle (log 6). -/
def Obligations.stores : Prop :=
  ∀ (s : State) (e : EngineId) (a : Word), Quiet s e → ∀ r ∈ storeRows, ∀ x0 x1 : Nat,
    let k := lsuFirst r.2.1 a
    let data := ((s.eng e).unit 9).b.toNat
    OwnAt s e a.toNat k accStore x0 →
    (lsuCrosses r.2.1 a = true → OwnAt s e ((a.toNat + k) % 2 ^ 32) (r.2.2 - k) accStore x1) →
    ∃ t o t', exec (r.1 e a) s = .next t ∧ Started s t e 9 r.2.1 (a.setWidth 128) o ∧ o.lat = 1 ∧
      exec (.resultDelivery e) t = .next t' ∧ (t'.eng e).inflight = [] ∧ (t'.eng e).units = (t.eng e).units ∧
      (t'.eng e).file = (s.eng e).file ∧
      ∀ y, memByte t'.mem y =
        if k < r.2.2 ∧ x1 ≤ y ∧ y < x1 + (r.2.2 - k) then byteOf data (k + (y - x1))
        else if x0 ≤ y ∧ y < x0 + k then byteOf data (y - x0) else memByte s.mem y

/-- R144 to R146, Table 5-4, Table 6-3: the plain vector loads and stores of the own scratchpad, byte by byte, made in the
schedule cycle after the trigger; of the masked ones only the bytes whose mask bit is 1; a load delivers 4 cycles after its
trigger. The model's choice in it: an operation row is that operation triggered alone in a bundle (log 6). -/
def Obligations.vector_memory : Prop :=
  (∀ (s : State) (e : EngineId) (a : Word) (x : Nat), Quiet s e →
    let p := (s.eng e).unit 10
    (∀ r ∈ [(Instr.vld e a, 0, 16, fun _ : Nat => true), (.vldD e a, 1, 8, fun _ => true),
        (.vldm e a, 2, 16, fun j => p.c.getLsbD j)],
      a.toNat % r.2.2.1 = 0 → OwnAt s e a.toNat r.2.2.1 accLoad x →
      ∃ t o t' v, exec r.1 s = .next t ∧ Started s t e 10 r.2.1 (a.setWidth 128) o ∧ o.lat = 4 ∧
        exec (.resultDelivery e) t = .next t' ∧ t'.mem = s.mem ∧ (t'.eng e).units = (t.eng e).units ∧
        (t'.eng e).file = (s.eng e).file ∧ (t'.eng e).inflight = [{ o with age := 1, act := .seq true [] [v] }] ∧
        ∀ j, j < 16 → byteOf v j = if j < r.2.2.1 ∧ r.2.2.2 j = true then memByte s.mem (x + j) else 0) ∧
    (∀ r ∈ [(Instr.vst e a, 8, 16, fun _ : Nat => true), (.vstD e a, 9, 8, fun _ => true),
        (.vstm e a, 10, 16, fun j => p.c.getLsbD j)],
      a.toNat % r.2.2.1 = 0 → OwnAt s e a.toNat r.2.2.1 accStore x →
      ∃ t o t', exec r.1 s = .next t ∧ Started s t e 10 r.2.1 (a.setWidth 128) o ∧ o.lat = 1 ∧
        exec (.resultDelivery e) t = .next t' ∧ (t'.eng e).inflight = [] ∧ (t'.eng e).units = (t.eng e).units ∧
        (t'.eng e).file = (s.eng e).file ∧
        ∀ y, memByte t'.mem y =
          if x ≤ y ∧ y < x + r.2.2.1 ∧ r.2.2.2 (y - x) = true then elemAt 8 p.b (y - x) else memByte s.mem y)) ∧
  ∀ (s : State) (e : EngineId) (o : Op) (v : Nat), let g := s.eng e
    Alone s e o → o.unit = 10 → o.opcode < 3 → o.act = .seq true [] [v] → o.age + 1 = o.lat →
    ∃ t, exec (.resultDelivery e) s = .next t ∧ OnlyEngine s t e ∧ (t.eng e).inflight = [] ∧
      (t.eng e).unit 10 = { g.unit 10 with q := BitVec.ofNat 128 v } ∧
      (∀ j, j ≠ 10 → (t.eng e).unit j = g.unit j) ∧ (t.eng e).gr = g.gr ∧ (t.eng e).vr = g.vr ∧ (t.eng e).pr = g.pr

/-- R147 to R149: structure loads and element sequences on the own scratchpad: their start, the part or element that they access
in a schedule cycle, the registers that a structure load writes two at a time, readable from the cycle after, and the end of a
sequence. The model's choices in it: an operation row is that operation triggered alone in a bundle (log 6). -/
def Obligations.vector_structures : Prop :=
  (∀ (s : State) (e : EngineId) (o : Op) (n : Nat) (vals : List Vec), let g := s.eng e
    Alone s e o → n < 16 → 2 ≤ vals.length → vals.length ≤ 4 → o.act = .vstruct n vals →
    (o.age + 1 = o.lat → ∃ t, exec (.resultDelivery e) s = .next t ∧ OnlyEngine s t e ∧
      (t.eng e).inflight = (if vals.length = 2 then [] else [{ o with age := o.age + 1 }]) ∧
      ∀ k, k < 16 → (t.eng e).srcVal (.sock 1 k) = g.vr.getD k 0 ∧ (t.eng e).vr.getD k 0 =
        if k = n then vals.getD 0 0 else if k = (n + 1) % 16 then vals.getD 1 0 else g.vr.getD k 0) ∧
    (o.age = o.lat → 2 < vals.length → ∃ t, exec (.resultDelivery e) s = .next t ∧ OnlyEngine s t e ∧
      (t.eng e).inflight = [] ∧
      ∀ k, k < 16 → (t.eng e).srcVal (.sock 1 k) = g.vr.getD k 0 ∧ (t.eng e).vr.getD k 0 =
        if k = (n + 2) % 16 then vals.getD 2 0
        else if k = (n + 3) % 16 ∧ vals.length = 4 then vals.getD 3 0 else g.vr.getD k 0)) ∧
  (∀ (s : State) (e : EngineId) (o : Op) (z : VSize) (k : Nat) (p : MemPart) (ps : List MemPart) (got : List Nat) (x : Nat),
    Alone s e o → s.ecc = [] → o.unit = 10 → k < 3 → o.opcode = 16 + 3 * k + vsCode z → o.act = .seq true (p :: ps) got → o.shadow = [] →
    o.age = p.elem → (∀ q ∈ ps, p.elem < q.elem ∧ ∃ y, q.spot = .own y) → o.age + 1 < o.lat → p.bad = none → p.spot = .own x → p.len = 16 →
    p.strobe = fullStrobe 16 → (∀ v ∈ got, v < 2 ^ 128) → got.length + ps.length + 1 = k + 2 →
    let all := got ++ [memNat s.mem x 16]
    ∃ t act, exec (.resultDelivery e) s = .next t ∧ t.mem = s.mem ∧ (t.eng e).vr = (s.eng e).vr ∧
      (t.eng e).units = (s.eng e).units ∧ (t.eng e).inflight = [{ o with age := o.age + 1, act := act }] ∧
      (ps ≠ [] → act = .seq true ps all) ∧
      (ps = [] → ∃ vals, act = .vstruct o.reg vals ∧ vals.length = k + 2 ∧
        ∀ j i b, j < k + 2 → i < vsCount z → b < vsBytes z →
          let f := vsBytes z * ((k + 2) * i + j) + b
          elemAt 8 (vals.getD j 0) (vsBytes z * i + b) = byteOf (all.getD (f / 16) 0) (f % 16))) ∧
  (∀ (s : State) (e : EngineId) (o : Op) (z : VSize) (got : List Nat), let g := s.eng e
    Alone s e o → o.unit = 10 → s.ecc = [] →
    (∀ p ps x, o.opcode ∈ [32 + vsCode z, 36 + vsCode z] → o.act = .seq true (p :: ps) got → o.shadow = [] →
      o.age + 1 = 3 + p.elem → (∀ q ∈ ps, p.elem < q.elem) → o.age + 1 < o.lat → p.bad = none → p.spot = .own x →
      p.strobe = fullStrobe p.len →
      ∃ t, exec (.resultDelivery e) s = .next t ∧ t.mem = s.mem ∧ (t.eng e).vr = g.vr ∧ (t.eng e).unit 10 = g.unit 10 ∧
        (t.eng e).inflight = [{ o with age := o.age + 1, act := .seq true ps (got ++ [memNat s.mem x p.len]) }]) ∧
    (∀ p ps x, o.opcode = 40 + vsCode z → o.act = .seq false (p :: ps) got → o.shadow = [] →
      o.age + 1 = 3 + p.elem → (∀ q ∈ ps, p.elem < q.elem) → p.bad = none → p.spot = .own x → p.strobe = fullStrobe p.len →
      ∃ t got', exec (.resultDelivery e) s = .next t ∧ (t.eng e).unit 10 = g.unit 10 ∧
        (∀ y, memByte t.mem y = if x ≤ y ∧ y < x + p.len then byteOf p.data (y - x) else memByte s.mem y) ∧
        (t.eng e).inflight = if ps = [] ∧ o.age + 1 = o.lat then []
          else [{ o with age := o.age + 1, act := .seq false ps got' }]) ∧
    (o.opcode ∈ [32 + vsCode z, 36 + vsCode z] → o.act = .seq true [] got → got.length = vsCount z → o.age + 1 = o.lat →
      ∃ t, exec (.resultDelivery e) s = .next t ∧ t.mem = s.mem ∧ (t.eng e).vr = g.vr ∧ (t.eng e).inflight = [] ∧
        ∀ i, i < vsCount z → elemAt (8 * vsBytes z) ((t.eng e).unit 10).q i = BitVec.ofNat (8 * vsBytes z) (got.getD i 0))) ∧
  ∀ (s : State) (e : EngineId) (z : VSize) (a : Word), Quiet s e →
    let p := (s.eng e).unit 10
    let n := vsBytes z
    (∀ r ∈ [(Instr.vld2 e z a, 16, 2), (.vld3 e z a, 19, 3), (.vld4 e z a, 22, 4)], ∀ x : Nat → Nat,
      a.toNat % 16 = 0 → (∀ j, j < r.2.2 → OwnAt s e ((a.toNat + 16 * j) % 2 ^ 32) 16 accLoad (x j)) →
      ∃ t o parts, exec r.1 s = .next t ∧ Started s t e 10 (r.2.1 + vsCode z) (a.setWidth 128) o ∧
        o.act = .seq true parts [] ∧ o.reg = p.b.toNat % 16 ∧ o.lat = 5 ∧ parts.length = r.2.2 ∧
        ∀ j, j < r.2.2 → ∃ q, parts[j]? = some q ∧ q.va = a + BitVec.ofNat 32 (16 * j) ∧ q.len = 16 ∧ q.strobe = fullStrobe 16 ∧
          q.bad = none ∧ q.elem = j ∧ q.spot = .own (x j)) ∧
    (∀ r ∈ [(Instr.vgather e z a, 32, true, fun i : Nat => a + BitVec.ofNat 32 ((elemAt (8 * n) p.b i).toNat * (p.c.toNat % 2 ^ 32))),
        (.vlds e z a, 36, true, fun i => a + BitVec.ofNat 32 (i * (p.c.toNat % 2 ^ 32))),
        (.vscatter e z a, 40, false, fun i => a + BitVec.ofNat 32 ((elemAt (8 * n) p.c i).toNat * n))],
      ∀ x : Nat → Nat, (∀ i, i < vsCount z → (r.2.2.2 i).toNat % n = 0 ∧
        OwnAt s e (r.2.2.2 i).toNat n (accOf r.2.2.1) (x i)) →
      ∃ t o parts, exec r.1 s = .next t ∧ Started s t e 10 (r.2.1 + vsCode z) (a.setWidth 128) o ∧
        o.act = .seq r.2.2.1 parts [] ∧ (t.eng e).seqBusy = 16 ∧ parts.length = vsCount z ∧
        ∀ i, i < vsCount z → ∃ q, parts[i]? = some q ∧ q.va = r.2.2.2 i ∧ q.len = n ∧ q.strobe = fullStrobe n ∧ q.bad = none ∧ q.elem = i ∧
          q.spot = .own (x i) ∧ (r.2.2.1 = false → q.data = (elemAt (8 * n) p.b i).toNat))

/-! ## pio, ixu, tim, sys -/

/-- R121 to R123: a local `in` or `out` is under way for 4 cycles; it is checked in the first of them, and one that is admitted is
made in the last: registers of the engine that take and give back what they hold. A remote one leaves as a request on the fabric;
one of a port that nothing has is found to be a bus error. The model's choices in it: an operation row is
that operation triggered alone in a bundle (log 6). -/
def Obligations.port_access : Prop :=
  (∀ (s : State) (e : EngineId) (v : Word), Quiet s e → (0x10000 ≤ v.toNat ∨ pioTarget e v.toNat = none) →
    let fails (c : Instr) : Prop := ∃ t o x, exec c s = .next t ∧ OnlyEngine s t e ∧ (t.eng e).inflight = [o] ∧
      o.fault = some (1, x) ∧ x.cause = 4 ∧ x.faddr = v
    fails (.in_ e v) ∧ fails (.out e v)) ∧
  (∀ (s : State) (e : EngineId) (v : Word) (t0 : Target) (r : RegInfo), Quiet s e → v.toNat < 0x10000 →
    pioTarget e v.toNat = some t0 → pioLocal e t0 = false → targetInfo t0 = some r →
    let req (wr : Bool) : FabReq := {
      write := wr, addr := s.devId * 2 ^ 31 + aliasAddr t0, len := r.width, strobe := fullStrobe r.width
      data := if wr then ((s.eng e).unit 12).a.toNat % 2 ^ 32 % 2 ^ (8 * r.width) else 0, token := 0, va := v
      sup := (s.eng e).sup, pio := true }
    let asks (c : Instr) (n : Nat) (wr : Bool) : Prop := ∃ t o, exec c s = .next t ∧
      Started (s.modEng e fun g => { g with fabQ := g.fabQ ++ [(req wr, .op o.id)] }) t e 12 n (v.setWidth 128) o ∧
      o.act = .rpio (req wr) ∧ o.lat = 0
    asks (.in_ e v) 0 false ∧ asks (.out e v) 1 true) ∧
  (∀ (s : State) (e : EngineId) (v : Word) (t0 : Target), Quiet s e → v.toNat < 0x10000 →
    pioTarget e v.toNat = some t0 → pioLocal e t0 = true →
    let a : Word := ((s.eng e).unit 12).a.setWidth 32
    (∃ t o, exec (.in_ e v) s = .next t ∧
      Started s t e 12 0 (v.setWidth 128) o ∧ o.act = .pioIn v.toNat ∧ o.lat = 4 ∧ o.sup = (s.eng e).sup) ∧
    ∃ t o, exec (.out e v) s = .next t ∧
      Started s t e 12 1 (v.setWidth 128) o ∧ o.act = .pioOut v.toNat a ∧ o.lat = 4 ∧ o.sup = (s.eng e).sup) ∧
  (∀ (s : State) (e : EngineId) (o : Op) (port : Nat) (t0 : Target) (wr : Bool), Alone s e o →
    pioTarget e port = some t0 → o.age = 0 → 1 < o.lat → (wr = false → o.act = .pioIn port) →
    (wr = true → ∃ w, o.act = .pioOut port w) →
    (∀ r, s.regCheck { accessOf s (.pio e) with sup := o.sup } t0 wr = .ok r →
      ∃ t, exec (.resultDelivery e) s = .next t ∧ OnlyEngine s t e ∧ (t.eng e).inflight = [{ o with age := 1 }] ∧
        (t.eng e).io = (s.eng e).io) ∧
    ∀ x, s.regCheck { accessOf s (.pio e) with sup := o.sup } t0 wr = .error x →
      ∃ t, exec (.resultDelivery e) s = .next t ∧ OnlyEngine s t e ∧ (t.eng e).io = (s.eng e).io ∧
        (t.eng e).inflight = [{ o with age := 1, fault := some (1, pioFault o.slot wr (BitVec.ofNat 32 port) x) }]) ∧
  ∀ (s : State) (e : EngineId) (o : Op) (w : Word), Alone s e o → o.unit = 12 → o.age + 1 = o.lat → 1 < o.lat → let g := s.eng e
    ∀ r ∈ [(0x810, 0xFFFFFFFF#32), (0x814, 0xFFFFFFFF#32), (0x820, 0x7FFF#32), (0x860, 0x7E#32), (0x8C4, 0xFFFFFFFF#32),
        (0x8C8, 0xFFFFFFFF#32), (0xB20, 0x0FFF0FFF#32), (0xB2C, 0x0FFF0FFF#32)],
      (o.act = .pioOut r.1 w → ∃ t, exec (.resultDelivery e) s = .next t ∧ OnlyEngine s t e ∧ (t.eng e).inflight = [] ∧
        (t.eng e).ioGet r.1 = (w &&& r.2) ||| (g.ioGet r.1 &&& ~~~r.2) ∧
        ∀ q, q ≠ r.1 → (t.eng e).ioGet q = g.ioGet q) ∧
      (o.act = .pioIn r.1 → ∃ t, exec (.resultDelivery e) s = .next t ∧ OnlyEngine s t e ∧ (t.eng e).inflight = [] ∧
        (t.eng e).io = g.io ∧ ((t.eng e).unit 12).q = (g.ioGet r.1).setWidth 128)

/-- R124 to R128, R130 to R132, R236: the operations of `ixu`, `tim` and `sys` start. A read of a sys register delivers it one
cycle later; a number that Table 4-10 does not list reads 0; at user level a supervisor register is refused with cause 0x02. The
model's choices in it: an operation row is that operation triggered alone in a bundle (log 6); the time of waitu (log 57); when
sys.rd is refused (log 63). -/
def Obligations.special_units : Prop :=
  ∀ (s : State) (e : EngineId) (v : Word), Quiet s e → let g := s.eng e
    (v.toNat < 2 ^ 15 → g.sup = true →
      (∃ t o, exec (.rdw e v) s = .next t ∧ Started s t e 13 0 (v.setWidth 128) o ∧ o.act = .ixuRd v.toNat ∧ o.lat = 6) ∧
      (∃ t o, exec (.wrw e v) s = .next t ∧ Started s t e 13 1 (v.setWidth 128) o ∧
        o.act = .ixuWr v.toNat ((g.unit 13).b.setWidth 32) ∧ o.lat = 6)) ∧
    (∃ t o, exec (.nowlo e) s = .next t ∧
      Started (s.modEng e fun h => { h with nowSample := s.engTim e }) t e 14 0 0 o ∧ o.act = .writeQ ∧ o.lat = 1 ∧
      o.q = ((s.engTim e).setWidth 32 : Word).setWidth 128) ∧
    (∃ t o, exec (.nowhi e) s = .next t ∧ Started s t e 14 1 0 o ∧ o.act = .writeQ ∧ o.lat = 1 ∧
      o.q = ((g.nowSample >>> (32 : Nat)).setWidth 128 : Vec)) ∧
    (∃ t o, exec (.setl e v) s = .next t ∧ Started s t e 14 3 (v.setWidth 128) o ∧ o.lat = 1 ∧
      o.act = .setl ((g.unit 14).a.setWidth 32 ++ v)) ∧
    (∃ t, exec (.waitu e v) s = .next t ∧ t = { s with engines := s.engines.set e (t.eng e) } ∧
      (t.eng e).waitTo = some ((g.unit 14).a.setWidth 32 ++ v) ∧ (t.eng e).inflight = [] ∧ (t.eng e).file = g.file) ∧
    (∀ r ∈ [(Instr.wrAstat e v, 1), (.wrSsp e v, 5), (.wrSbase e v, 6), (.wrSlimit e v, 7)], (r.2 ≠ 1 → g.sup = true) →
      ∃ t o, exec r.1 s = .next t ∧ Started s t e 15 (16 + r.2) (v.setWidth 128) o ∧ o.act = .sysWr r.2 v ∧ o.lat = 1) ∧
    let n := v.toNat % 256
    ((g.sup = true ∨ n < 2 ∨ 8 < n) → ∃ t o, exec (.sysRd e v) s = .next t ∧ Started s t e 15 0 (v.setWidth 128) o ∧
      o.act = .writeQ ∧ o.lat = 1 ∧
      (∀ r ∈ [(1, g.astat.setWidth 32), (2, BitVec.ofNat 32 g.cause), (3, g.cdetail), (4, g.faddr), (5, g.ssp), (6, g.sbase),
          (7, g.slimit), (8, BitVec.ofNat 32 (fld (g.ioGet 0x8C0) 27 16)), (9, g.slip)], n = r.1 → o.q = (r.2 : Word).setWidth 128) ∧
      (n = 0 → fld o.q 3 0 = g.astat.toNat ∧ fld o.q 7 4 = g.mode.val ∧ o.q.getLsbD 8 = g.sup ∧
        o.q.getLsbD 9 = (g.world == .H)) ∧
      (n = 10 → fld o.q 7 0 = e.val ∧ fld o.q 10 8 = (engDie e).val ∧ fld o.q 24 16 = s.devId) ∧
      (10 < n → n < 0x40 ∨ 0x80 ≤ n → o.q = 0)) ∧
    (g.sup = false → 2 ≤ n → n ≤ 8 → StackOk s e g.ssp.toNat → ∃ t, exec (.sysRd e v) s = .next t ∧
      Entered s t e g.ssp.toNat 2 (BitVec.ofNat 32 n) g.pc g.pc (fld (g.ioGet 0x8C0) 27 16))

/-! ## Issue of bundles -/

/-- R42, R52 to R54, R56, R39, R40: a bundle of moves to general registers and predicates issues: every source is read before any
destination is written, a move whose guard is false does nothing, p0 keeps its value, the PC goes on to the next bundle, and
nothing else changes. R35, R54: a bundle that moves an operand and triggers an operation of `alu0` or `alu1` starts it with the
operand that it has moved, unless the guard of the trigger is false. R61, R63, R64: a repeated bundle stays at its PC until its
last iteration: the iterations left are counted, from those of the frame after a return, or LC counts them, and with LC = 0 no
move takes effect. R70: in a throughput mode with dual issue on, two bundles of moves that do not meet issue together and count as
a pair, unless NP forbids it. -/
def Obligations.bundle_issue : Prop :=
  let next (pc : Word) : Word :=
    if pc.getLsbD 31 then pc &&& 0xFC000000#32 ||| BitVec.ofNat 32 ((pc.toNat + 1) % 2 ^ 26) else BitVec.ofNat 32 ((pc.toNat + 1) % 0x1000)
  let plain (b : Bundle) : Prop := b.bad = none ∧ b.priv = none ∧ b.timed = false
  (∀ (s : State) (e : EngineId) (w : W256), Quiet s e → let g := s.eng e
    let b := decodeBundle w
    g.single → s.fetch e = (.bundle w, s) → plain b → b.repn = 0 → g.repLeft = none →
    (∀ m ∈ b.moves, (m.dunit = 0 ∧ m.dport < 32 ∨ m.dunit = 2 ∧ m.dport < 8) ∧
      ((∃ v, m.src = .imm v) ∨ (∃ r, r < 32 ∧ m.src = .sock 0 r) ∨ ∃ r, r < 8 ∧ m.src = .sock 2 r)) →
    (b.moves.map fun m => (m.dunit, m.dport)).Nodup →
    let pred (k : Nat) : Word := if k = 0 then 0xFFFF else (g.pr.getD k 0).setWidth 32
    let runs (m : Move) : Prop := (pred (m.guard % 8)).getLsbD 0 ≠ m.guard.testBit 3
    let value (m : Move) : Word := match m.src with
      | .imm v => v.setWidth 32
      | .sock u r => if u = 0 then g.gr.getD r 0 else pred r
    ∃ t, exec (.bundleIssue e) s = .next t ∧ OnlyEngine s t e ∧
      (t.eng e).rest = { g.rest with gr := (t.eng e).gr, pr := (t.eng e).pr, repResume := 0, pc := next g.pc } ∧
      (t.eng e).units = g.units ∧ (t.eng e).inflight = [] ∧ (t.eng e).cycleOpen = false ∧ (t.eng e).bubbles = 0 ∧
      (∀ m ∈ b.moves, runs m → m.dunit = 0 → (t.eng e).gr.getD m.dport 0 = value m) ∧
      (∀ r, (∀ m ∈ b.moves, runs m → (m.dunit, m.dport) ≠ (0, r)) → (t.eng e).gr.getD r 0 = g.gr.getD r 0) ∧
      (∀ m ∈ b.moves, runs m → m.dunit = 2 → m.dport ≠ 0 → (t.eng e).pr.getD m.dport 0 = (value m).setWidth 16) ∧
      ∀ r, (r = 0 ∨ ∀ m ∈ b.moves, runs m → (m.dunit, m.dport) ≠ (2, r)) → (t.eng e).pr.getD r 0 = g.pr.getD r 0) ∧
  (∀ (s : State) (e : EngineId) (w : W256) (u : Fin 2) (i j k guard : Nat) (x : Word), Quiet s e → let g := s.eng e
    let b := decodeBundle w
    g.single → s.fetch e = (.bundle w, s) → plain b → b.repn = 0 → g.repLeft = none → k < 32 → (guard = 0 ∨ guard = 8) →
    ∀ r ∈ aluRows, b.moves = [{ slot := i, guard := 0, src := .imm (x.setWidth 128), dunit := 3 + u.val, dport := 0 },
        { slot := j, guard := guard, src := .sock 0 k, dunit := 3 + u.val, dport := 64 + r.code }] →
      let v := g.gr.getD k 0
      ∃ t, exec (.bundleIssue e) s = .next t ∧ OnlyEngine s t e ∧ (t.eng e).pc = next g.pc ∧ (t.eng e).file = g.file ∧
        (∀ q, q ≠ 3 + u.val → (t.eng e).unit q = g.unit q) ∧
        (t.eng e).unit (3 + u.val) = { g.unit (3 + u.val) with
          a := x.setWidth 128, b := if guard = 0 then v.setWidth 128 else (g.unit (3 + u.val)).b } ∧
        (guard = 8 → (t.eng e).inflight = []) ∧
        (guard = 0 → ∃ o, (t.eng e).inflight = [o] ∧ o.unit = 3 + u.val ∧ o.opcode = r.code ∧ o.slot = j ∧ o.pc = g.pc ∧ o.age = 0 ∧
          o.lat = 1 ∧ o.act = .writeQ ∧ o.fault = none ∧ o.q = (r.result x v).setWidth 128 ∧ o.flags = r.flags x v ∧
          o.trapAt = if r.traps && (r.flags x v).getLsbD 0 then some 1 else none)) ∧
  (∀ (s : State) (e : EngineId) (w : W256), Quiet s e → let g := s.eng e
    let b := decodeBundle w
    g.single → s.fetch e = (.bundle w, s) → plain b →
    (1 ≤ b.repn → b.repn ≤ 62 → b.moves = [] → ∃ t, exec (.bundleIssue e) s = .next t ∧ OnlyEngine s t e ∧
      let left := g.repLeft.getD (if g.repResume = 0 then b.repn + 1 else g.repResume)
      (t.eng e).repLeft = (if left ≤ 1 then none else some (left - 1)) ∧ (t.eng e).pc = (if left ≤ 1 then next g.pc else g.pc) ∧
      (t.eng e).file = g.file ∧ (t.eng e).lc = g.lc ∧ (t.eng e).units = g.units ∧ (t.eng e).repResume = 0) ∧
    (∀ i d v, b.repn = 63 → d < 32 → b.moves = [{ slot := i, guard := 0, src := .imm v, dunit := 0, dport := d }] →
      ∃ t, exec (.bundleIssue e) s = .next t ∧ OnlyEngine s t e ∧ (t.eng e).units = g.units ∧ (t.eng e).pr = g.pr ∧
        let none_ := g.lc = 0 ∧ g.repLeft = none
        (t.eng e).gr = (if none_ then g.gr else g.gr.setIfInBounds d (v.setWidth 32)) ∧
        (t.eng e).lc = (if none_ then 0 else g.lc - 1) ∧
        (t.eng e).pc = (if none_ ∨ g.lc = 1 then next g.pc else g.pc))) ∧
  ∀ (s : State) (e : EngineId) (np : Bool), Quiet s e → let g := s.eng e
    let b := decodeBundle (g.fetchView.bundleAt (fld g.pc 11 0))
    let c := decodeBundle (g.fetchView.bundleAt (fld g.pc 11 0 + 1))
    throughput g.mode = true → g.diEn = true → s.throttled = false → s.ecc = [] → g.repLeft = none → g.pc.toNat < 0xFFF →
    plain b → plain c → b.repn = 0 → c.repn = 0 → b.np = np → c.np = false →
    (∀ m ∈ b.moves ++ c.moves, m.guard = 0 ∧ m.dunit = 0 ∧ m.dport < 32 ∧ ∃ r, r < 32 ∧ m.src = .sock 0 r) →
    ((b.moves ++ c.moves).map (·.dport)).Nodup → portsOk (b.moves ++ c.moves) = true →
    (∀ m ∈ b.moves, ∀ n ∈ c.moves, n.src ≠ .sock 0 m.dport) →
    ∃ t, exec (.bundleIssue e) s = .next t ∧ OnlyEngine s t e ∧ (t.eng e).inflight = [] ∧ (t.eng e).units = g.units ∧
      (t.eng e).pr = g.pr ∧ (t.eng e).ec = g.ec + 1 ∧ (t.eng e).pc = g.pc + (if np then 1 else 2) ∧
      (∀ m ∈ (if np then b.moves else b.moves ++ c.moves), ∀ r, m.src = .sock 0 r → (t.eng e).gr.getD m.dport 0 = g.gr.getD r 0) ∧
      (∀ r, (∀ m ∈ (if np then b.moves else b.moves ++ c.moves), m.dport ≠ r) → (t.eng e).gr.getD r 0 = g.gr.getD r 0) ∧
      let pairs := (g.ioGet 0x804).toNat % 2 ^ 16
      ((t.eng e).ioGet 0x804).toNat % 2 ^ 16 = (if np then pairs else min 0xFFFF (pairs + 1)) ∧
      ((t.eng e).ioGet 0x804).toNat / 2 ^ 16 = (g.ioGet 0x804).toNat / 2 ^ 16

/-- R87, R88, R45, R237: a bundle that does not issue: an illegal one enters with cause 0x01, its reason and slot; a privileged
one at user level with cause 0x02 and the slot; a launch-timed one that misses its time, where the policy of the engine's world
says so, with cause 0x0E and how many ec late. R213 to R216: in MD6 a bundle that reads a result port before a fixed-latency
operation in flight delivers to it, that moves LC in a repeat, or that guards a move with a predicate that it writes, enters with
cause 0x0F and says which hazard it is where HAZ_CTL has the trap on; else it issues, and HAZ_STAT counts it. -/
def Obligations.issue_refused : Prop :=
  (∀ (s : State) (e : EngineId) (w : W256), Quiet s e → StackOk s e (s.eng e).ssp.toNat → let g := s.eng e
    let b := decodeBundle w
    let handler := fld (g.ioGet 0x8C0) 27 16
    s.fetch e = (.bundle w, s) →
    (∀ r i, b.bad = some (r, i) → ∃ t, exec (.bundleIssue e) s = .next t ∧
      Entered s t e g.ssp.toNat 1 (BitVec.ofNat 32 (r + 256 * i)) g.pc g.pc handler) ∧
    (∀ i, b.bad = none → b.priv = some i → g.sup = false → ∃ t, exec (.bundleIssue e) s = .next t ∧
      Entered s t e g.ssp.toNat 2 (BitVec.ofNat 32 (256 * i)) g.pc g.pc handler) ∧
    (b.bad = none → b.priv = none → b.moves = [] → b.timed = true → g.repLeft = none → g.launchWait = false →
      0 < s.ecPast e g.launch → (s.n0 0x5010).getLsbD (if g.world = .T then 0 else 1) = true →
      ∃ t, exec (.bundleIssue e) s = .next t ∧
        Entered s t e g.ssp.toNat 0x0E (BitVec.ofNat 32 (min 0xFFFF (s.ecPast e g.launch).toNat)) g.pc g.pc handler)) ∧
  ∀ (s' : State) (e : EngineId) (w : W256) (l : List Op), Quiet s' e → StackOk s' e (s'.eng e).ssp.toNat →
    let s := s'.modEng e fun g => { g with mode := 6, hazExempt := false, inflight := l, haz := {} }
    let g := s.eng e
    let b := decodeBundle w
    s.fetch e = (.bundle w, s) → b.bad = none → b.priv = none → b.timed = false → g.repLeft = none → g.intEvent = none →
    let traps (cdetail : Word) : Prop := ∃ t, exec (.bundleIssue e) s = .next t ∧ (t.eng e).cause = 0x0F ∧
      (t.eng e).cdetail = cdetail ∧ (t.eng e).faddr = g.pc ∧ (t.eng e).gr = g.gr ∧ (t.eng e).lc = g.lc ∧ (t.eng e).inflight = [] ∧
      t.ownWord e (g.ssp.toNat - 64) = g.pc ∧ (t.eng e).pc = BitVec.ofNat 32 (fld (g.ioGet 0x8C0) 27 16)
    let counts (kind : Nat) (f : Engine → Prop) : Prop := ∃ t, exec (.bundleIssue e) s = .next t ∧ OnlyEngine s t e ∧
      let n := (g.ioGet 0x864).toNat
      ((t.eng e).ioGet 0x864).toNat / 2 ^ 16 = min 0xFFFF (n / 2 ^ 16 + 1) ∧
      ((t.eng e).ioGet 0x864).toNat % 16 = (if n % 16 = 0 then kind else n % 16) ∧
      (t.eng e).ioGet 0x868 = (if n % 16 = 0 then g.pc else g.ioGet 0x868) ∧ f (t.eng e)
    (∀ (o : Op) (i d : Nat), l = [o] → o.id < g.opId → 3 ≤ o.unit → o.unit < 8 → o.act = .writeQ → o.fault = none → o.trapAt = none →
      0 < o.age → o.age < o.lat → o.lat < 64 → longOp o.unit o.opcode = false → d < 32 → b.repn = 0 →
      b.moves = [{ slot := i, guard := 0, src := .sock o.unit 8, dunit := 0, dport := d }] →
      ((g.ioGet 0x860).getLsbD 1 = true → o.lat - o.age ≤ 24 →
        traps (BitVec.ofNat 32 ((o.lat - o.age) * 2 ^ 16 ||| o.unit * 2 ^ 8 ||| i * 2 ^ 4 ||| 1))) ∧
      ((g.ioGet 0x860).getLsbD 1 = false → counts 1 fun h => h.gr = g.gr.setIfInBounds d ((g.unit o.unit).q.setWidth 32) ∧
        h.units = g.units)) ∧
    (∀ (i : Nat) (v : Vec), l = [] → 1 ≤ b.repn → b.repn ≤ 62 →
      b.moves = [{ slot := i, guard := 0, src := .imm v, dunit := 8, dport := 16 }] →
      ((g.ioGet 0x860).getLsbD 4 = true → traps (BitVec.ofNat 32 (8 * 2 ^ 8 ||| i * 2 ^ 4 ||| 4))) ∧
      ((g.ioGet 0x860).getLsbD 4 = false → counts 4 fun h => h.lc = v.setWidth 32)) ∧
    ∀ (i j k d : Nat) (v x : Vec), l = [] → b.repn = 0 → 1 ≤ k → k < 8 → d < 32 →
      b.moves = [{ slot := i, guard := 0, src := .imm v, dunit := 2, dport := k }, { slot := j, guard := k, src := .imm x, dunit := 0, dport := d }] →
      ((g.ioGet 0x860).getLsbD 5 = true → traps (BitVec.ofNat 32 (2 * 2 ^ 8 ||| j * 2 ^ 4 ||| 5))) ∧
      ((g.ioGet 0x860).getLsbD 5 = false → counts 5 fun h => h.pr = g.pr.setIfInBounds k (v.setWidth 16) ∧
        h.gr = if (g.pr.getD k 0).getLsbD 0 then g.gr.setIfInBounds d (x.setWidth 32) else g.gr)

/-- R236, R128: a bundle held for its launch time, or for the end of a WAIT-UNTIL, issues when the engine's time has reached it,
and not before; a launch leaves its time in TIM_LAST. Stated for bundles without moves. The model's choices in it: an event
whose condition fails changes nothing (log 3); holds for a time (log 62). -/
def Obligations.timed_holds : Prop :=
  ∀ (s : State) (e : EngineId) (x : W256) (w : Option Dword), Quiet s e → let g := s.eng e
    let s' := s.modEng e fun h => { h with waitTo := w }
    let b := decodeBundle x
    g.single → g.repLeft = none → s'.fetch e = (.bundle x, s') → b.bad = none → b.priv = none → b.repn = 0 → b.moves = [] →
    let next (t : State) (last : Dword) : Prop := OnlyEngine s' t e ∧
      (t.eng e).rest = { g.rest with
        repResume := 0, timLast := last
        pc := if g.pc.getLsbD 31 then g.pc &&& 0xFC000000#32 ||| BitVec.ofNat 32 ((g.pc.toNat + 1) % 2 ^ 26)
              else BitVec.ofNat 32 ((g.pc.toNat + 1) % 0x1000) } ∧
      (t.eng e).units = g.units ∧ (t.eng e).launchWait = false ∧ (t.eng e).cycleOpen = false
    (b.timed = true → g.launchWait = true → w = none →
      (0 ≤ s.ecPast e g.launch → ∃ t, exec (.launchIssue e) s' = .next t ∧ next t (s.engTim e)) ∧
      (s.ecPast e g.launch < 0 → exec (.launchIssue e) s' = .next s')) ∧
    (∀ T, b.timed = false → w = some T →
      ((T - s.engTim e).toInt ≤ 0 → ∃ t, exec (.waitUntilEnd e) s' = .next t ∧ next t g.timLast) ∧
      (0 < (T - s.engTim e).toInt → exec (.waitUntilEnd e) s' = .next s'))

/-! ## Fabric, caches and store buffer -/

/-- R317 to R319, R185: a request for a Pool bank that nothing contends with is granted at its first target port and at each one
on its way, and made: it is the engine's outstanding transaction, answered with the bytes read, or having written those whose
strobes are set; the engine's next request leaves in the fc after that answer at the earliest. The model's choices in it: `resp`
is the record of the answer (log 8); the way takes no fc of its own (log 84). -/
def Obligations.fabric_transaction : Prop :=
  ∀ (s : State) (e : EngineId) (r : FabReq) (u : FabUse) (rest : List (FabReq × FabUse)) (d : DieId) (port : Nat)
    (way : List (DieId × Nat)),
    let g := s.eng e
    let x := r.addr % 2 ^ 31
    g.fabQ = (r, u) :: rest → g.fabOut = none → g.fabNext ≤ s.fc → FabricIdle s (some e) → r.addr / 2 ^ 31 = s.devId → PoolAt s x r.len →
    s.wayTo (engDie e) r.addr r.len = (d, port) :: way →
    ∃ t v, exec (.fabricTransaction d port) s = .next t ∧
      t = { s with engines := s.engines.set e (t.eng e), dies := t.dies, mem := t.mem } ∧ Granted s t ((d, port) :: way) ∧
      t.eng e = { g with fabQ := rest, fabOut := some { req := r, use := u, resp := some (.ok v) }, fabNext := s.fc + 1 } ∧
      (r.write = false → t.mem = s.mem ∧ ∀ j, j < r.len → byteOf v j = memByte s.mem (x + j)) ∧
      (r.write = true → v = 0 ∧ ∀ y, memByte t.mem y = (strobed x r.len r.strobe r.data y).getD (memByte s.mem y))

/-- R51, R116, R122: the response of a load on the fabric delivers its value to `lsu.q`, that of a remote `in` to `pio.q`; that
of a remote `out` ends it; any error fails the load, the store, the `in` or the `out`, with the cause, FADDR and CDETAIL that
Table 12-1 gives it. A transfer to another package is one whole run of bytes. The model's choices in it: `resp` is the record of the
answer (log 8). -/
def Obligations.fabric_response : Prop :=
  ∀ (s : State) (e : EngineId) (o : Op) (q : FabReq) (rp : Resp), let g := s.eng e
    g.inflight = [o] → g.fabOut = some { req := q, use := .op o.id, resp := some rp } →
    (q.addr / 2 ^ 31 = s.devId ∨ (q.strobe = fullStrobe q.len ∧ (q.write = false → q.data = 0))) →
    let fails (f : OpFault) : Prop := exec (.fabricResponse e) s = .next (s.modEng e fun h => { h with
      fabOut := none, inflight := [{ o with fault := some (max 1 o.age, f) }] })
    (∀ r ∈ loadRows, ∀ p v, o.unit = 9 → o.opcode = r.code → o.act = .mem true [p] [] → p.len = lsuBytes r.code →
      p.strobe = fullStrobe p.len → rp = .ok v → o.arg < 2 ^ 32 → lsuFirst r.code (BitVec.ofNat 32 o.arg) = p.len →
      ∃ t, exec (.fabricResponse e) s = .next t ∧ OnlyEngine s t e ∧
        { t.eng e with haz := g.haz, units := g.units } = { g with inflight := [], fabOut := none, came := 9 :: g.came } ∧
        (t.eng e).unit 9 = { g.unit 9 with q := (r.value (byteOf v) (o.arg % 4)).setWidth 128 } ∧
        ∀ j, j ≠ 9 → (t.eng e).unit j = g.unit j) ∧
    (∀ r v, o.act = .rpio r → rp = .ok v →
      ∃ t, exec (.fabricResponse e) s = .next t ∧ OnlyEngine s t e ∧
        { t.eng e with haz := g.haz, units := g.units } =
          { g with inflight := [], fabOut := none, came := if r.write then g.came else 12 :: g.came } ∧
        (t.eng e).unit 12 = (if r.write then g.unit 12 else
          { g.unit 12 with q := (BitVec.ofNat 32 (v % 2 ^ (8 * r.len))).setWidth 128 }) ∧
        ∀ j, j ≠ 12 → (t.eng e).unit j = g.unit j) ∧
    (∀ load p ps got k, o.unit = 9 → o.act = .mem load (p :: ps) got → let acc := if load = true then 0 else 16
      ∀ x ∈ [(Resp.bus k, 4, k), (.owner k, 7, k), (.part, 6, 11 + acc), (.world, 6, 12 + acc), (.level, 6, 12 + acc),
        (.cap k, 0x0D, k + acc)],
        rp = x.1 → fails { cause := x.2.1, faddr := p.va, cdetail := BitVec.ofNat 32 x.2.2 }) ∧
    ∀ r k, o.act = .rpio r → let acc := if r.write = true then 16 else 0
      ∀ x ∈ [(Resp.bus k, 4, k), (.owner k, 7, k), (.part, 6, 11 + acc), (.world, 6, 12 + acc), (.level, 2, o.slot * 2 ^ 8),
        (.cap k, 0x0D, k + acc)],
        rp = x.1 → fails { cause := x.2.1, faddr := r.va, cdetail := BitVec.ofNat 32 x.2.2 }

/-- R356: a captured `in` arrives: its value goes into the word after its pending word in the frame, whose status says 0;
nothing else of memory changes. The model's choices in it: `resp` is the record of the answer (log 8). -/
def Obligations.capwait_response : Prop :=
  ∀ (s : State) (e : EngineId) (q : FabReq) (off v : Nat), let g := s.eng e
    g.fabOut = some { req := q, use := .capture off, resp := some (.ok v) } → g.portB = [] →
    (q.addr / 2 ^ 31 = s.devId ∨ (q.strobe = fullStrobe q.len ∧ q.write = false ∧ q.data = 0)) →
    off % 8 = 0 → off < 0x8000 → s.ecc = [] → (∀ b, s.borrowed e b = false) →
    ∃ t, exec (.capwaitResponse e) s = .next t ∧ t = { s with engines := s.engines.set e (t.eng e), mem := t.mem } ∧
      { t.eng e with bankAt := g.bankAt } = { g with fabOut := none } ∧
      t.ownWord e (off + 4) = BitVec.ofNat 32 v ∧ fld (t.ownWord e off) 17 14 = 0 ∧
      (∀ i, i < 32 → ¬(14 ≤ i ∧ i ≤ 17) → (t.ownWord e off).getLsbD i = (s.ownWord e off).getLsbD i) ∧
      ∀ a, a < ownAddr e off ∨ ownAddr e off + 8 ≤ a → memByte t.mem a = memByte s.mem a

/-- R180, R182, R183: a line fill puts its line, with the bytes that came, into the cache it was for, a data line with those
that buffered stores hold on top of them; no line enters beside it, and the other cache stays. The drain of the oldest store
to a Pool bank writes the bytes of its mask and frees its entry. The model's choices in it: open values are free (log 1);
`resp` is the record of the answer (log 8); the set of a cache line (log 53). -/
def Obligations.cache_and_buffer : Prop :=
  (∀ (s : State) (e : EngineId) (q : FabReq) (instr : Bool) (line v : Nat), let g := s.eng e
    g.fabOut = some { req := q, use := .fill instr line, resp := some (.ok v) } → g.inflight = [] →
    (q.addr / 2 ^ 31 = s.devId ∨ (q.strobe = fullStrobe q.len ∧ q.write = false ∧ q.data = 0)) →
    let stored (j : Nat) : Option SbEnt := g.sbuf.reverse.find? fun b =>
      !instr && b.block == 4 * line + j / 16 && b.mask.testBit (j % 16)
    let cache (h : Engine) : List CLine := if instr then h.icache else h.dcache
    ∃ t, exec (.cacheFill e instr) s = .next t ∧ t = { s with engines := s.engines.set e (t.eng e), freeCtr := t.freeCtr } ∧
      { t.eng e with icache := g.icache, dcache := g.dcache } = { g with fabOut := none } ∧
      (if instr then (t.eng e).dcache = g.dcache else (t.eng e).icache = g.icache) ∧
      (∃ l, lineOf (cache (t.eng e)) (64 * line) = some l ∧ l.line = line ∧ l.data.length = 64 ∧
        ∀ j, j < 64 → l.data.getD j 0 = (match stored j with | some b => byteOf b.data (j % 16) | none => byteOf v j)) ∧
      ∀ l, l ∈ cache (t.eng e) → l.line ≠ line → ∃ k, k ∈ cache g ∧ k.line = l.line ∧
        (instr = true ∨ (∀ b, b ∈ g.sbuf → b.block / 4 ≠ l.line) → k = l)) ∧
  ∀ (s : State) (e : EngineId) (b : SbEnt) (bs : List SbEnt), let g := s.eng e
    g.sbuf = b :: bs → g.fabQ = [(b.request, .drain)] → g.fabOut = none → g.fabNext ≤ s.fc → g.inflight = [] →
    FabricIdle s (some e) →
    16 * b.block / 2 ^ 31 = s.devId → let x := 16 * b.block % 2 ^ 31
    PoolAt s x 16 →
    ∃ t, exec (.storeBufferDrain e) s = .next t ∧
      t = { s with engines := s.engines.set e (t.eng e), dies := t.dies, mem := t.mem } ∧
      Granted s t (s.wayTo (engDie e) (16 * b.block) 16) ∧
      t.eng e = { g with sbuf := bs, fabQ := [], fabNext := s.fc + 1 } ∧
      ∀ y, memByte t.mem y = (strobed x 16 b.mask b.data y).getD (memByte s.mem y)

/-! ## Registers of an engine -/

/-- R71, R181, R333, R357, R371, R419: EXC_CTL, PT_BASE, TLB_INV and the flush of the branch target buffer take effect 2 ec
after the write, at once where the engine issues nothing; ENG_DOORBELL sets lines 16 to 31; any write of ENG_START stages a
start; IINV and DINV empty the instruction cache and the data cache. An EXC_CTL write during an entry acts on the IE bit that the
frame has saved. The model's choices in it: `resp` is the record of the answer (log 8). -/
def Obligations.engine_controls : Prop :=
  ∀ (s : State) (e : EngineId) (m : Master) (v : Word) (r : RegInfo), let g := s.eng e
    g.late = [] → let force (h : Engine) : Engine := if g.running then passEcs 2 h else h
    (∀ off, MayWrite s m (.io e 0x8C0) r → g.entryFrame = some off → off % 4 = 0 → off + 8 ≤ 0x40000 →
      ∃ t, exec (.excCtlWrite m e v) s = .next t ∧
        t = { s with engines := s.engines.set e (t.eng e), mem := t.mem, resp := .ok 0 } ∧
        (t.eng e).ioGet 0x8C0 = (v &&& 0x0FFF0000#32) ||| (g.ioGet 0x8C0 &&& 0xF000FFFE#32) ∧
        (∀ i, i < 32 → (t.ownWord e (off + 4)).getLsbD i = if i = 10 then v.getLsbD 0 else (s.ownWord e (off + 4)).getLsbD i) ∧
        ∀ a, a < ownAddr e (off + 4) ∨ ownAddr e (off + 8) ≤ a → memByte t.mem a = memByte s.mem a) ∧
    (MayWrite s m (.io e 0x8C0) r → g.entryFrame = none → ∃ t, exec (.excCtlWrite m e v) s = .next t ∧
      IoWritten s t e 0x8C0 ((v &&& 0x0FFF0001#32) ||| (g.ioGet 0x8C0 &&& 0xF000FFFE#32)) ∧
      (g.running = true → (t.eng e).ie = g.ie ∧ (t.eng e).vbase = g.vbase) ∧
      (force (t.eng e)).ie = v.getLsbD 0 ∧ (force (t.eng e)).vbase = v.toNat / 2 ^ 16 % 2 ^ 12) ∧
    (MayWrite s m (.io e 0x8D4) r → ∃ t, exec (.doorbell m e v) s = .next t ∧
      IoWritten s t e 0x8CC (g.ioGet 0x8CC ||| (v &&& 0xFFFF#32) <<< (16 : Nat)) ∧ (t.eng e).late = []) ∧
    (MayWrite s m (.io e 0xB10) r → ∃ t, exec (.engStartWrite m e v) s = .next t ∧
      IoWritten s t e 0xB10 (0x80000000#32 ||| (g.ioGet 0xB10 &&& 0x30#32) ||| (v &&& 7#32)) ∧ (t.eng e).late = []) ∧
    (MayWrite s m (.io e 0x8A0) r → ∃ t, exec (.ptBaseWrite m e v) s = .next t ∧
      IoWritten (s.modEng e fun h => { h with tlb := (t.eng e).tlb }) t e 0x8A0
        ((v &&& 0x07FFFFFF#32) ||| (g.ioGet 0x8A0 &&& 0xF8000000#32)) ∧
      (force (t.eng e)).tlb = g.tlb.filter (·.glob) ∧ (force (t.eng e)).ptb = v.toNat % 2 ^ 27) ∧
    (MayWrite s m (.io e 0x8A4) r → ∃ t, exec (.tlbInv m e v) s = .next t ∧
      (∃ w, IoWritten (s.modEng e fun h => { h with tlb := (t.eng e).tlb }) t e 0x8A4 w ∧ w = g.ioGet 0x8A4) ∧
      (force (t.eng e)).tlb = if v.getLsbD 0 then [] else g.tlb.filter fun x => !(x.covers (v.toNat / 2 ^ 12))) ∧
    (MayWrite s m (.io e 0x800) r → ∃ t, exec (.btbFlush m e v) s = .next t ∧
      IoWritten (s.modEng e fun h => { h with btb := (t.eng e).btb, rstack := (t.eng e).rstack }) t e 0x800 (v &&& 3#32) ∧
      (force (t.eng e)).btb = [] ∧ (force (t.eng e)).rstack = [] ∧ (force (t.eng e)).bpEn = v.getLsbD 1 ∧
      (force (t.eng e)).diEn = v.getLsbD 0) ∧
    (MayWrite s m (.io e 0x894) r →
      exec (.iinv m e) s = .next { (s.modEng e fun h => { h with icache := [] }) with resp := .ok 0 } ∧
      exec (.dinv m e) s = .next { (s.modEng e fun h => { h with dcache := [] }) with resp := .ok 0 })

/-- R93, R97: the load check of a half decides by world, digest, PORTABLE and mode, in this order, and its result stands in
ENG_IMGSTAT. The model's choices in it: `resp` is the record of the answer (log 8). -/
def Obligations.image_check : Prop :=
  ∀ (s : State) (e : EngineId) (m : Master) (v : Word) (r : RegInfo), let g := s.eng e
    MayWrite s m (.io e 0x818) r → g.arm = none → g.armed = [] →
    let result : Nat :=
      if v.getLsbD 2 ≠ (g.world == .H) then 5
      else if g.ioGet 0x810 = latDigLo Config.stepping ∧ g.ioGet 0x814 = latDigHi Config.stepping then 1
      else if v.getLsbD 1 then 2 else if g.mode = 8 then 3 else 4
    let half := (v.getLsbD 0).toNat
    ∃ t w, exec (.imageCheck m e v) s = .next t ∧ IoWritten s t e 0x81C w ∧ (t.eng e).late = g.late ∧
      w.toNat / 16 % 8 = result ∧ w.getLsbD half = decide (result ≤ 3) ∧ w.getLsbD (2 + half) = decide (result = 3) ∧
      ∀ i, i < 32 → i ≠ half → i ≠ 2 + half → ¬(4 ≤ i ∧ i ≤ 6) → w.getLsbD i = (g.ioGet 0x81C).getLsbD i

/-- R179, R95: a word for the instruction scratchpad is written at ENG_ILADDR, which advances, and ends the acceptance of its
half, where fetch does not use that half; else an own `out` waits in the buffer and an alias write at the port, and
ILDATA_BUFFER_WRITE writes a buffered word once fetch leaves the half. The model's choices in it: an event whose condition fails
changes nothing (log 3); `resp` is the record of the answer (log 8). -/
def Obligations.instruction_loading : Prop :=
  ∀ (s : State) (e : EngineId) (m : Master) (v : Word) (r : RegInfo), let g := s.eng e
    let k := (g.ioGet 0x820).toNat % 0x8000
    let half := k / 0x4000
    let unused := g.running = false ∨ g.pc.getLsbD 31 = true ∨ (g.pc.getLsbD 11).toNat ≠ half ∨ g.waitTo.isSome = true ∨
      g.launchWait = true
    let loaded (t : State) : Prop :=
      (t.eng e).imemGet k = v ∧ (∀ j, j ≠ k → (t.eng e).imemGet j = g.imemGet j) ∧
      (t.eng e).ioGet 0x820 = BitVec.ofNat 32 ((k + 1) % 0x8000) ∧
      (∀ i, i < 32 → ((t.eng e).ioGet 0x81C).getLsbD i = ((g.ioGet 0x81C).getLsbD i && decide (i ≠ half ∧ i ≠ 2 + half))) ∧
      (∀ q, q ≠ 0x820 → q ≠ 0x81C → (t.eng e).ioGet q = g.ioGet q) ∧
      { t.eng e with io := [], imem := [], ilBuf := none } = { g with io := [], imem := [], ilBuf := none }
    s.ecc = [] → g.arm = none → g.armed = [] → g.ilHeld = [] →
    (MayWrite s m (.io e 0x824) r → g.ilBuf = none →
      (unused → ∃ t, exec (.ildataWrite m e v) s = .next t ∧
        t = { s with engines := s.engines.set e (t.eng e), resp := .ok 0 } ∧ loaded t ∧ (t.eng e).ilBuf = none) ∧
      (¬unused → exec (.ildataWrite m e v) s = .next (if m = .pio e then
          { (s.modEng e fun h => { h with ilBuf := some v }) with resp := .ok 0 }
        else { (s.modEng e fun h => { h with ilHeld := [(v, outerOf s m)] }) with resp := .held }))) ∧
    (g.ilBuf = some v →
      (unused → ∃ t, exec (.ildataBufferWrite e) s = .next t ∧ OnlyEngine s t e ∧ loaded t ∧ (t.eng e).ilBuf = none) ∧
      (¬unused → exec (.ildataBufferWrite e) s = .next s))

/-- R155 to R159: the vector unit powers down after 4,096 idle ec of a throughput mode unless PINON forbids it or an
acknowledged commit leads out of the throughput modes, and counts it; a write of WAKE or PINON begins a wake of 96 ec; the
wake ends when they have passed. The model's choices in it: an event whose condition fails changes nothing (log 3); `resp` is
the record of the answer (log 8); a power-down after PINON has been cleared (log 88). -/
def Obligations.vector_power : Prop :=
  ∀ (s : State) (e : EngineId) (m : Master) (v : Word) (r : RegInfo), let g := s.eng e
    let idle := throughput g.mode = true ∧ g.vpwr = .on ∧ g.vdue = true ∧ (g.effIo 0x840).getLsbD 0 = false ∧
      ∀ a k, a ∈ g.armed ∨ g.arm = some a → a.acked = true → a.applied = false → a.mode = some k → throughput k = true
    (idle → ∃ t w, exec (.vectorPowerDown e) s = .next t ∧ OnlyEngine s t e ∧ (t.eng e).vpwr = .asleep ∧
      { t.eng e with io := [], vpwr := .on } = { g with io := [], vdue := false } ∧ (t.eng e).ioGet 0x840 = w ∧
      (∀ q, q ≠ 0x840 → (t.eng e).ioGet q = g.ioGet q) ∧ w.toNat / 2 ^ 16 = min 0xFFFF ((g.ioGet 0x840).toNat / 2 ^ 16 + 1) ∧
      w.toNat % 2 ^ 16 = (g.ioGet 0x840).toNat % 2 ^ 16) ∧
    (¬idle → exec (.vectorPowerDown e) s = .next s) ∧
    (g.vpwr = .waking → g.vwake = 0 →
      exec (.vectorWakeDone e) s = .next (s.modEng e fun h => { h with vpwr := .on })) ∧
    (¬(g.vpwr = .waking ∧ g.vwake = 0) → exec (.vectorWakeDone e) s = .next s) ∧
    (MayWrite s m (.io e 0x840) r → g.late = [] →
      ∀ c ∈ [(Instr.vecWake m e v, true), (.pinon m e v, v.getLsbD 0 || v.getLsbD 1)], ∃ t, exec c.1 s = .next t ∧
        t = { s with engines := s.engines.set e (t.eng e), resp := .ok 0 } ∧
        let h := if g.running then passEcs 2 (t.eng e) else t.eng e
        (c.2 = true → g.vpwr = .asleep → h.vpwr = .waking ∧ h.vwake = 96) ∧
        (c.2 = false ∨ g.vpwr ≠ .asleep → h.vpwr = g.vpwr) ∧
        ((t.eng e).ioGet 0x840).getLsbD 0 = v.getLsbD 0 ∧
        (t.eng e).file = g.file ∧ (t.eng e).units = g.units ∧ ∀ q, q ≠ 0x840 → (t.eng e).ioGet q = g.ioGet q)

/-- R429, R413: in MD10 the words of ENG_SNAP read and write the engine's registers; outside MD10 no access reaches them. The
model's choices in it: `resp` is the record of the answer (log 8). -/
def Obligations.state_window : Prop :=
  ∀ (s : State) (e : EngineId) (m : Master) (off : Nat) (v : Word) (r : RegInfo), let g := s.eng e
    let port (x : UnitPorts) (u k : Nat) : Vec := if k = 0 then x.a else if k = 1 then x.b else if k = 3 then x.q
      else if u = 6 then x.q1 else x.c
    let wide (u k : Nat) : Prop := u = 11 ∨ (u = 10 ∧ k ≠ 0)
    (MayRead s m (.io e (0x1000 + off)) r → off < 0x600 →
      ∃ w : Word, exec (.engSnapAccess m e off none) s = .next { s with resp := .ok w.toNat } ∧
      (∀ i, i < 32 → off = 4 * i → w = g.gr.getD i 0) ∧
      (∀ i j, i < 16 → j < 4 → off = 0x80 + 16 * i + 4 * j → ∀ k, k < 32 → w.getLsbD k = (g.vr.getD i 0).getLsbD (32 * j + k)) ∧
      (∀ i, 1 ≤ i → i < 8 → off = 0x180 + 4 * i → w = (g.pr.getD i 0).setWidth 32) ∧
      (∀ x ∈ [(0x1A0, g.lc), (0x1A4, g.ra), (0x1A8, g.pc), (0x1AC, g.astat.setWidth 32), (0x1B0, g.launch.setWidth 32),
          (0x1B4, (g.launch >>> (32 : Nat)).setWidth 32)], off = x.1 → w = x.2) ∧
      (∀ u k j, 3 ≤ u → u < 16 → k < 4 → j < 4 → off = 0x200 + 0x40 * (u - 3) + 16 * k + 4 * j →
        ∀ i, i < 32 → w.getLsbD i = (port (g.unit u) u k).getLsbD (32 * j + i))) ∧
    (MayWrite s m (.io e (0x1000 + off)) r → off < 0x600 →
      ∃ f : Engine → Engine, exec (.engSnapAccess m e off (some v)) s = .next { s.modEng e f with resp := .ok 0 } ∧
      (∀ i, i < 32 → off = 4 * i → f g = { g with gr := g.gr.setIfInBounds i v }) ∧
      (∀ i, 1 ≤ i → i < 8 → off = 0x180 + 4 * i → f g = { g with pr := g.pr.setIfInBounds i (v.setWidth 16) }) ∧
      (off = 0x1A0 → f g = { g with lc := v }) ∧ (off = 0x1A4 → f g = { g with ra := v }) ∧
      (off = 0x1A8 → f g = { g with pc := v }) ∧ (off = 0x1AC → f g = { g with astat := v.setWidth 4 }) ∧
      (∀ i j, i < 16 → j < 4 → off = 0x80 + 16 * i + 4 * j → { f g with vr := g.vr } = g ∧
        (∀ n, n ≠ i → (f g).vr.getD n 0 = g.vr.getD n 0) ∧
        ∀ k, k < 128 → ((f g).vr.getD i 0).getLsbD k = if k / 32 = j then v.getLsbD (k % 32) else (g.vr.getD i 0).getLsbD k) ∧
      (off = 0x1B0 ∨ off = 0x1B4 → { f g with launch := g.launch } = g ∧
        ∀ k, k < 64 → (f g).launch.getLsbD k = if (off = 0x1B4 ↔ 32 ≤ k) then v.getLsbD (k % 32) else g.launch.getLsbD k) ∧
      (∀ u k j, 3 ≤ u → u < 16 → k < 4 → j < 4 → off = 0x200 + 0x40 * (u - 3) + 16 * k + 4 * j →
        { f g with units := g.units } = g ∧ (∀ n, n ≠ u → (f g).unit n = g.unit n) ∧
        (∀ n, n < 4 → n ≠ k → port ((f g).unit u) u n = port (g.unit u) u n) ∧
        ∀ i, i < 128 → (wide u k ∨ i < 32) → (port ((f g).unit u) u k).getLsbD i =
          if i / 32 = j then v.getLsbD (i % 32) else (port (g.unit u) u k).getLsbD i)) ∧
    (g.mode ≠ 10 → off < 0x600 →
      (∀ r, ¬MayRead s m (.io e (0x1000 + off)) r) ∧ ∀ r, ¬MayWrite s m (.io e (0x1000 + off)) r)

/-! ## Input queues -/

/-- R295, R296: a read takes the oldest word of a queue, 0 and UNDER from an empty one, and lets a held push that now fits
enter; a word from the engine enters a queue that is not full and is lost to a full one; a word from the alias, and 8 words from
an internal master, enter where they fit and no write is held, and else are held. The model's choices in it: `resp` is the
record of the answer (log 8); a held write answers as held (log 15). -/
def Obligations.input_queues : Prop :=
  ∀ (s : State) (e : EngineId) (m : Master) (q : Fin 16) (v : Word) (ws : W256) (r : RegInfo), let g := s.eng e
    let words : List Word := (List.range 8).map fun i => (ws >>> (32 * i)).setWidth 32
    let held (n : Nat) (x : List Word) (h : Engine) : Engine := { h with
      io := if g.iq[q].length + n ≤ 64 then h.io else (h.ioPut 0x80 (setBit (h.ioGet 0x80) (16 + q) true)).io
      iqHeld := h.iqHeld ++ [{ queue := q, words := x, who := none }] }
    (MayRead s m (.io e (0x40 + 4 * q)) r →
      (∀ w x, g.iq[q] = w :: x → g.iqHeld = [] →
        exec (.iqPop m e q) s = .next { (s.modEng e fun h => { h with iq := h.iq.set q x }) with resp := .ok w.toNat }) ∧
      (∀ w x y z, g.iq[q] = w :: x → g.iqHeld = [{ queue := q, words := y, who := none }] → x.length + y.length ≤ 64 → z = x ++ y →
        exec (.iqPop m e q) s = .next { (s.modEng e fun h => { h with iq := h.iq.set q z, iqHeld := [] }) with
          resp := .ok w.toNat }) ∧
      (∀ w x y, g.iq[q] = w :: x → g.iqHeld = [{ queue := q, words := y, who := none }] → 64 < x.length + y.length →
        exec (.iqPop m e q) s = .next { (s.modEng e fun h =>
          { h.ioPut 0x80 (setBit (h.ioGet 0x80) (16 + q) true) with iq := h.iq.set q x }) with resp := .ok w.toNat }) ∧
      (g.iq[q] = [] → exec (.iqPop m e q) s = .next { (s.modEng e fun h =>
        h.ioPut 0x80 (setBit (h.ioGet 0x80) q true)) with resp := .ok 0 })) ∧
    (MayWrite s (.pio e) (.io e (0x40 + 4 * q)) r → exec (.iqWordPush (.pio e) e q v) s = .next { (s.modEng e fun h =>
      if g.iq[q].length < 64 then { h with iq := h.iq.set q (h.iq[q] ++ [v]) }
      else h.ioPut 0x84 (setBit (h.ioGet 0x84) q true)) with resp := .ok 0 }) ∧
    (∀ f, MayWrite s (.alias_ f) (.io e (0x40 + 4 * q)) r → exec (.iqWordPush (.alias_ f) e q v) s = .next (
      if g.iqHeld = [] ∧ g.iq[q].length < 64 then
        { (s.modEng e fun h => { h with iq := h.iq.set q (h.iq[q] ++ [v]) }) with resp := .ok 0 }
      else { s.modEng e (held 1 [v]) with resp := .held })) ∧
    exec (.iqPush e q ws) s = .next (
      if g.iqHeld = [] ∧ g.iq[q].length + 8 ≤ 64 then s.modEng e fun h => { h with iq := h.iq.set q (h.iq[q] ++ words) }
      else s.modEng e (held 8 words))

/-! ## Banks, Skink and error correction -/

/-- R167, R169: a bank goes to a new code by its current owner, and back to code 0x0 by a reclaim once nothing is in flight; a
write by another sets GIVE_ERR, but over the alias one that is neither the bank's owner nor a supervisor of the engine's world is
refused (R374). The bank is not borrowed. The model's choices in it: a reclaim whose port is still busy changes nothing
(log 3); `resp` is the record of the answer (log 8). -/
def Obligations.bank_handover : Prop :=
  ∀ (s : State) (e : EngineId) (m : Master) (bank : Fin 16) (code : Nat) (r : RegInfo), let g := s.eng e
    let a := accessOf s m
    let give : Word := BitVec.ofNat 32 (16 * code + bank)
    let moved (h : Engine) (c : Nat) : Prop := h.owner bank = c ∧ (∀ b, b < 16 → b ≠ bank → h.owner b = g.owner b) ∧
      (∀ q, q ≠ 0x880 → q ≠ 0x884 → h.ioGet q = g.ioGet q) ∧ { h with io := [] } = { g with io := [] }
    let refused : State := { (s.modEng e fun h => h.ioPut 0x890 (setBit (h.ioGet 0x890) 8 true)) with resp := .ok 0 }
    let owns := a.sup = true ∧ ((a.viaAlias = false ∧ g.owner bank = 0) ∨ (a.viaAlias = true ∧
      ((g.owner bank = 2 ∧ a.eng = some (neighbour e false)) ∨ (g.owner bank = 3 ∧ a.eng = some (neighbour e true)) ∨
        (g.mode = 10 ∧ (a.world = g.world ∨ a.root = true)))))
    let fits := code ≤ 5 ∧ code ≠ 4 ∧ (code = 2 ∨ code = 3 → bank.val ≤ 1 ∧ s.world (neighbour e (decide (code = 3))) = g.world)
    let barred := a.viaAlias = true ∧ a.root = false ∧ ¬owns ∧ (a.world ≠ g.world ∨ a.sup = false)
    s.borrowed e bank = false →
    (MayWrite s m (.io e 0x888) r → code < 16 →
      (barred → (∀ i, m ≠ .host i) → ∀ c ∈ [Instr.bankGive m e give, .reclaim m e bank],
        exec c s = .next { s with resp := if a.world = g.world then .level else .world }) ∧
      (owns → fits → ∃ t, exec (.bankGive m e give) s = .next t ∧
        t = { s with engines := s.engines.set e (t.eng e), resp := .ok 0 } ∧ moved (t.eng e) code) ∧
      (¬(owns ∧ fits) → ¬barred → exec (.bankGive m e give) s = .next refused) ∧
      (a.sup = true → (a.world = g.world ∨ a.root = true) →
        (s.portBusy e bank = false → ∃ t, exec (.reclaim m e bank) s = .next t ∧
          t = { s with engines := s.engines.set e (t.eng e), resp := .ok 0 } ∧ moved (t.eng e) 0) ∧
        (s.portBusy e bank = true → g.reclaim = [] →
          exec (.reclaim m e bank) s = .next { (s.modEng e fun h => { h with reclaim := [bank.val] }) with resp := .ok 0 })) ∧
      (¬(a.sup = true ∧ (a.world = g.world ∨ a.root = true)) → ¬barred → exec (.reclaim m e bank) s = .next refused)) ∧
    (g.reclaim = [bank.val] →
      (s.portBusy e bank = false → ∃ t, exec (.reclaimComplete e bank) s = .next t ∧ OnlyEngine s t e ∧
        moved { t.eng e with reclaim := g.reclaim } 0 ∧ (t.eng e).reclaim = []) ∧
      (s.portBusy e bank = true → exec (.reclaimComplete e bank) s = .next s))

/-- R185, R187 to R189, R193 to R195: a load that finds one bit in error takes the right data and leaves the word as it stands; its
bank's tracker counts it and ECC_LOG records it; at the threshold the word is retired into a spare, and with none left FULL is set
and the memory event raised. An error tracker entry without an error for 2^24 fc is freed; recorded retirements are no
longer open; Skink borrows a quiet bank of code 0x0, and goes through its words, one for each ten steps and GAP idle ec,
retiring a stuck one while a spare is left. The model's choices in it: an event whose condition fails changes nothing (log
3); where retirements are recorded (log 14); how long Skink keeps a bank (log 94). -/
def Obligations.memory_care : Prop :=
  (∀ (s : State) (e : EngineId) (o : Op) (p : MemPart) (off : Nat), let d := engDie e
    let word := off / 8 % 2048
    let bank := 16 * e.val + off / 8 / 2048
    let key := bank * 2 ^ 20 + word
    let old := smGet (fun _ => []) (s.die d).track bank
    let thresh := (s.dGet d 0x4000).toNat % 16
    let spares := smGet (fun _ => 0) (s.die d).spares bank
    Alone s e o → o.unit = 9 → o.opcode < 7 → o.act = .seq true [p] [] → o.shadow = [] → o.age = p.elem → o.age + 1 < o.lat →
    p.bad = none → p.spot = .own (ownAddr e off) → p.len = 4 → p.strobe = 15 → off < 0x40000 → off % 4 = 0 →
    s.eccOf key = 1 → (s.dGet d 0x4000).getLsbD 8 = false → (s.dGet d 0x4004).getLsbD 31 = false →
    ∃ t, exec (.resultDelivery e) s = .next t ∧ t.mem = s.mem ∧
      (t.eng e).inflight = [{ o with age := o.age + 1, act := .seq true [] [memNat s.mem (ownAddr e off) 4] }] ∧
      t.dGet d 0x4004 = BitVec.ofNat 32 (2 ^ 31 + e.val * 2 ^ 21 + off / 8 / 2048 * 2 ^ 17 + word) ∧
      (∀ k, k ≠ key → t.eccOf k = s.eccOf k) ∧
      (old = [] → 2 ≤ thresh → t.eccOf key = 1 ∧
        smGet (fun _ => []) (t.die d).track bank = [{ word := word, count := 1, last := s.fc }]) ∧
      (∀ n l, old = [{ word := word, count := n, last := l }] → thresh ≤ n + 1 →
        (spares < 8 → t.eccOf key = 0 ∧ smGet (fun _ => 0) t.retired key = spares + 1 ∧
          (t.die d).toRecord = (s.die d).toRecord ++ [(bank, word)]) ∧
        (8 ≤ spares → t.eccOf key = 1 ∧ (t.dGet d 0x4008).getLsbD 31 = true ∧
          ∀ f, engDie f = d → ((t.eng f).ioGet 0x8CC).getLsbD 3 = true))) ∧
  (∀ (s : State) (d : DieId) (bank word : Nat),
    ∃ t, exec (.eccTrackerExpiry d bank word) s = .next t ∧ t = { s with dies := s.dies.set d (t.die d) } ∧
      { t.die d with track := [] } = { s.die d with track := [] } ∧
      ∀ b, smGet (fun _ => []) (t.die d).track b = (smGet (fun _ => []) (s.die d).track b).filter fun x =>
        !(decide (b = bank ∧ x.word = word ∧ x.last + 2 ^ 24 ≤ s.fc))) ∧
  (∀ (s : State) (d : DieId), exec (.retirementRecord d) s = .next
    { s with dies := s.dies.set d { s.die d with toRecord := [] } }) ∧
  (∀ (s : State) (g : GeckoId) (j bank : Fin 16) (e : EngineId), e.val = 16 * g.val + j.val → let x := s.eng e
    let ctl := s.dGet (geckoDie g) 0x4020
    let may := ctl.getLsbD 31 = true ∧ (x.ioGet 0x88C).getLsbD bank = true ∧ x.owner bank = 0 ∧
      max 1 (ctl.toNat / 2 ^ 12 % 2 ^ 12) * 1024 * s.kF ≤ (s.fc - x.bankAt[bank]) * (if x.mode = 9 then min 20 s.kE else s.kE) ∧
      (s.die (geckoDie g)).mode ≠ 0
    (may → ∃ t, exec (.skinkBorrow g j bank) s = .next t ∧
      t = { s with
        engines := s.engines.set e (t.eng e)
        skink := s.skink.set g { s.skink[g] with held := s.skink[g].held ++ [{ eng := j, bank := bank }] } } ∧
      (t.eng e).owner bank = 4 ∧ t.borrowed e bank = true ∧ (∀ b, b < 16 → b ≠ bank → (t.eng e).owner b = x.owner b)) ∧
    (¬may → exec (.skinkBorrow g j bank) s = .next s)) ∧
  (∀ (s : State) (g : GeckoId) (e : EngineId) (m : SkinkBank) (pre post : List SkinkBank), e.val = 16 * g.val + m.eng.val →
    let k := s.skink[g]
    let bank := spadKey e m.bank
    let key := bank * 2 ^ 20 + m.word
    let d := geckoDie g
    let clock := if (s.eng e).mode = 9 then min 20 s.kE else s.kE
    let gap := (s.dGet d 0x4020).toNat % 2 ^ 12
    let after : Skink := { k with
      next := s.fc + ((10 + gap) * s.kF + clock - 1) / clock, held := pre ++ { m with word := m.word + 1 } :: post }
    (s.dGet d 0x4020).getLsbD 31 = true → (s.die d).mode ≠ 0 → k.held = pre ++ m :: post → (∀ x, x ∈ pre → 2048 ≤ x.word) →
    m.word < 2047 →
    (s.fc < k.next → exec (.skinkWordTest g) s = .next s) ∧
    (k.next ≤ s.fc → s.eccOf key ≠ 3 → exec (.skinkWordTest g) s = .next { s with skink := s.skink.set g after }) ∧
    (k.next ≤ s.fc → s.eccOf key = 3 → smGet (fun _ => 0) (s.die d).spares bank < 8 →
      ∃ t, exec (.skinkWordTest g) s = .next t ∧ t.skink = s.skink.set g after ∧ t.mem = s.mem ∧
        t.engines = s.engines ∧ t.eccOf key = 0 ∧ (∀ i, i ≠ key → t.eccOf i = s.eccOf i) ∧
        smGet (fun _ => 0) t.retired key = smGet (fun _ => 0) (s.die d).spares bank + 1 ∧
        (t.dGet d 0x4024).getLsbD 30 = true ∧ (t.die d).toRecord = (s.die d).toRecord ++ [(bank, m.word)]))

/-! ## Translation -/

/-- R330, R331, R333: a walk asks the fabric for the directory entry, and then for the table entry that this names; a leaf that
grants the access that waits for it (a load, a store or a fetch; any access where none waits), in a table or as a large page, is
kept in the engine's buffer; a page that this access may not use, or whose entry is not valid or could not be read, is remembered
as one that faults. The buffer has room. The model's choices in it: an event whose condition fails changes nothing (log 3); a walk
of its own names no access (log 87). -/
def Obligations.page_walk : Prop :=
  ∀ (s : State) (e : EngineId) (va : Word) (v u : Nat), let g := s.eng e
    let at1 := g.ptb * 0x2000 + 8 * (va.toNat / 2 ^ 22)
    let at2 := v / 2 ^ 12 % 2 ^ 28 * 2 ^ 12 + 8 * (va.toNat / 2 ^ 12 % 1024)
    let on (h : Engine) : Out := .next { s with engines := s.engines.set e h }
    let asks (fa : Nat) : Prop := answerTo g.tables fa 8 = none → (∀ q, q ∈ g.fabQ → q.2 ≠ .table fa 8) →
      (∀ f, g.fabOut = some f → f.use ≠ .table fa 8) → fa / 2 ^ 31 = s.devId →
      s.masterCheck (s.engWho e) (fa % 2 ^ 31) 8 false = none →
      exec (.pageWalk (.engine e) va) s = on { g with fabQ := g.fabQ ++ [(
        { write := false, addr := fa, len := 8, strobe := 255, data := 0, token := 0, va := 0 }, .table fa 8)] }
    let kept (x : TlbEnt) : Prop := exec (.pageWalk (.engine e) va) s = on { g with tlb := g.tlb ++ [x], tables := [] }
    let faults : Prop := exec (.pageWalk (.engine e) va) s = on { g with walked := some (va.toNat / 4096) }
    let grants (w acc : Nat) (sup : Bool) : Prop :=
      w / 2 ^ (acc + 1) % 2 = 1 ∧ (sup = false → w / 2 ^ 4 % 2 = 1) ∧ (acc = 2 → sup = true → w / 2 ^ 4 % 2 = 0)
    let waits (acc : Nat) (sup : Bool) : Prop := if acc = 2 then
        g.sup = sup ∧ g.inflight = [] ∧ g.pc.getLsbD 31 = true ∧ g.pc.toNat % 2 ^ 26 * 32 / 4096 = va.toNat / 4096
      else ∃ o p ps got, g.inflight = [o] ∧ o.sup = sup ∧ o.act = .mem (acc == 0) (p :: ps) got ∧ o.unit = 9 ∧ (o.opcode < 7 ↔ acc = 0) ∧
        p.spot = .walk ∧ p.bad = none ∧ p.va.toNat / 4096 = va.toNat / 4096
    let leaf (x : TlbEnt) (w : Nat) : Prop :=
      (∀ acc sup, acc < 3 → waits acc sup → (grants w acc sup → kept x) ∧ (¬grants w acc sup → faults)) ∧
      (g.inflight = [] → g.pc.getLsbD 31 = false →
        ((∃ acc, acc < 3 ∧ grants w acc g.sup) → kept x) ∧ ((∀ acc, acc < 3 → ¬grants w acc g.sup) → faults))
    let big : TlbEnt :=
      { big := true, glob := decide (v / 2 ^ 6 % 2 = 1), vpn := va.toNat / 2 ^ 22 * 1024
        pa := v / 2 ^ 22 % 2 ^ 18 * 2 ^ 22, rights := BitVec.ofNat 4 (v / 2) }
    let small : TlbEnt :=
      { big := false, glob := decide (u / 2 ^ 6 % 2 = 1), vpn := va.toNat / 4096
        pa := u / 2 ^ 12 % 2 ^ 28 * 2 ^ 12, rights := BitVec.ofNat 4 (u / 2) }
    let isBig := v % 2 = 1 ∧ v / 2 ^ 5 % 2 = 1 ∧ v / 2 ^ 7 % 2 ^ 5 = 0 ∧ v / 2 ^ 12 % 2 ^ 10 = 0 ∧ v / 2 ^ 40 = 0
    let isDir := v % 2 ^ 12 = 1 ∧ v / 2 ^ 12 % 2 = 0 ∧ v / 2 ^ 40 = 0
    let isSmall := u % 2 = 1 ∧ u / 2 ^ 5 % 2 = 0 ∧ u / 2 ^ 7 % 2 ^ 5 = 0 ∧ u / 2 ^ 40 = 0
    g.world = .H → (∀ x ∈ g.tlb, x.covers (va.toNat / 2 ^ 12) = false) → g.tlb.length < 32 →
    asks at1 ∧ (∀ k, answerTo g.tables at1 8 = some (.bus k) → faults) ∧
    (answerTo g.tables at1 8 = some (.ok v) → v < 2 ^ 64 →
      (v % 2 = 0 → faults) ∧
      (isBig → leaf big v) ∧
      (isDir → asks at2 ∧ (∀ k, answerTo g.tables at2 8 = some (.bus k) → faults) ∧
        (answerTo g.tables at2 8 = some (.ok u) → u < 2 ^ 64 →
          (u % 2 = 0 → faults) ∧ (isSmall → leaf small u))))

/-! ## The block as a whole -/

/-- A step runs the command at the front of the queue on the state with the rest of the queue. -/
def Obligations.queue_law : Prop :=
  ∀ (s : State) (c : Instr), step { s with pending := c :: s.pending } = exec c s

/-- R41, R166, R375, R404, R415 and the reset values of the registers: the package right after reset; the Keeper, in MD1, waits for
the bring-up (R423). -/
def Obligations.reset_state : Prop :=
  let s := State.reset
  s.pending = [] ∧ s.timNow = 0 ∧ s.lark.opened = true ∧ s.helio.st = .free ∧ s.coord.st = 0 ∧
  (∀ e, (s.eng e).mode = (if e.val = 96 then 1 else 0) ∧ (s.eng e).running = false ∧ s.world e = .H ∧ (s.eng e).pc = 0 ∧ (s.eng e).sup = true ∧
    (s.eng e).gr = .replicate 32 0 ∧ (s.eng e).vr = .replicate 16 0 ∧ (s.eng e).pr = .replicate 8 0 ∧
    (s.eng e).units = .replicate 16 {} ∧ (s.eng e).lc = 0 ∧ (s.eng e).ra = 0 ∧ (s.eng e).astat = 0 ∧
    (s.eng e).ioGet 0x800 = 3 ∧ (s.eng e).ioGet 0x860 = 0x7E ∧ (s.eng e).ioGet 0x8A8 = 8 ∧ (s.eng e).ioGet 0x8C0 = 0 ∧
    (s.eng e).ioGet 0x880 = 0 ∧ (s.eng e).ioGet 0x884 = 0 ∧ (s.eng e).ioGet 0x88C = 0 ∧ (s.eng e).ioGet 0xB20 = 0x08000000) ∧
  (∀ d, (s.die d).mode = 1 ∧ (s.die d).active = false ∧ s.dGet d 0x4000 = 4 ∧ (s.die d).claims = []) ∧
  s.n0 0x5000 = 0x00281E04 ∧ s.n0 0x5400 = 0x0F000190 ∧
  s.obj 0 = { valid := true, world := .H, epoch := 0 } ∧ (s.obj 1).valid = false ∧
  (∀ l : LaneId, s.lanes[l].st = .disabled) ∧ (∀ p : PortId, s.ports[p].up = false) ∧ (∀ c : ChanId, s.dma[c].st = .idle)

/-- Memory and calibration store are in canonical form after reset. The model's choices in it: unwritten memory reads 0 (log 4).
-/
def Obligations.reset_memory : Prop := State.reset.Inv

/-- Every step keeps memory and calibration store in canonical form: addresses strictly rising, and no byte listed that an
unlisted address reads as. The model's choices in it: a step on an empty queue is a tick of time (log 2); unwritten memory reads
0 (log 4). -/
def Obligations.step_keeps_memory : Prop := ∀ (s t : State), s.Inv → step s = .next t → t.Inv

/-- R123, R374, R424, R429: an access that fails a check makes no access: nothing changes but the answer. A register that is not
there, one reached inside (over an alias no register, R27), one of supervisor level at user level, one of the other world, one of
an engine that is not ready. The package is out of reset, and the links between the two dies are up.
The model's choices in it: `resp` is the record of the answer (log 8). -/
def Obligations.refused_access : Prop :=
  ∀ (s : State) (e f : EngineId) (v : Word), s.inReset = false →
    (∀ p, p < 0x2000 → ioCovers p = false → ¬(0x100 ≤ p ∧ p ≤ 0x11F) →
      exec (.registerWrite (.pio e) (.io e p) v) s = .next { s with resp := .bus 0 } ∧
      exec (.rcRead (.pio e) (.io e p)) s = .next { s with resp := .bus 0 }) ∧
    (∀ p, p < 0x2000 → ioCovers p = true → p % 4 ≠ 0 →
      exec (.registerWrite (.pio e) (.io e p) v) s = .next { s with resp := .misaligned } ∧
      exec (.rcRead (.pio e) (.io e p)) s = .next { s with resp := .misaligned } ∧
      (s.cutOff (.alias_ f) (.io e p) = false →
        exec (.rcRead (.alias_ f) (.io e p)) s = .next { s with resp := .bus 0 })) ∧
    (∀ p ∈ [0x800, 0x804, 0x810, 0x840, 0x888, 0x8A8, 0x8C0, 0x8C4, 0x8CC, 0xB00, 0xB10, 0xB20],
      ((s.eng e).sup = false →
        exec (.registerWrite (.pio e) (.io e p) v) s = .next { s with resp := .level } ∧
        exec (.rcRead (.pio e) (.io e p)) s = .next { s with resp := .level }) ∧
      ((p ≠ 0x810 ∧ p ≠ 0x888) → s.world f ≠ s.world e → s.cutOff (.alias_ f) (.io e p) = false →
        exec (.rcRead (.alias_ f) (.io e p)) s = .next { s with resp := .world }) ∧
      (s.world f = s.world e → (s.eng f).sup = true → s.engReady e = false → s.cutOff (.alias_ f) (.io e p) = false →
        exec (.rcRead (.alias_ f) (.io e p)) s = .next { s with resp := .bus 1 }))

/-! ## Registers -/

/-- R8, R11, R225, R241: an RW field takes the value written, a 1 clears a W1C field, other bits stay; a read clears RC fields;
reading HEL_NOW_LO or TIM_LAST_LO latches the upper word; reading CAP_TSHI frees the timestamp. The model's choices in it:
`resp` is the record of the answer (log 8). -/
def Obligations.register_access : Prop :=
  ∀ (s : State) (e : EngineId) (m : Master) (v : Word) (r : RegInfo), let g := s.eng e
    (∀ x ∈ [(0x810, 0xFFFFFFFF#32), (0x814, 0xFFFFFFFF), (0x820, 0x7FFF), (0x860, 0x7E), (0x8C4, 0xFFFFFFFF), (0x8C8, 0xFFFFFFFF),
        (0xB20, 0x0FFF0FFF), (0xB2C, 0x0FFF0FFF)], MayWrite s m (.io e x.1) r →
      ∃ t, exec (.registerWrite m (.io e x.1) v) s = .next t ∧ (t.eng e).late = g.late ∧
        IoWritten s t e x.1 ((v &&& x.2) ||| (g.ioGet x.1 &&& ~~~x.2))) ∧
    (∀ x ∈ [(0x80, 0xFFFFFFFF#32), (0x84, 0xFFFF), (0x8CC, 0xFFFFFFFF), (0x8D0, 0xFFFF0000), (0x8D8, 0xF)],
      MayWrite s m (.io e x.1) r →
      ∃ t, exec (.registerWrite m (.io e x.1) v) s = .next t ∧ (t.eng e).late = g.late ∧
        IoWritten s t e x.1 (g.ioGet x.1 &&& ~~~(v &&& x.2))) ∧
    (∀ x ∈ [(0x501C, 0xFFFFFFFF#32), (0x5414, 0xFFFFFFFF), (0x5418, 0xFFFFFFFF), (0x5404, 0xFFFFFFFF), (0x7700, 0xFFF),
        (0x7710, 0xFFFF0FFF), (0x7714, 0xFFFFFFFF)], MayWrite s m (.die newt0 x.1) r →
      ∃ t, exec (.registerWrite m (.die newt0 x.1) v) s = .next t ∧
        DieWritten s t newt0 x.1 ((v &&& x.2) ||| (s.n0 x.1 &&& ~~~x.2))) ∧
    (∀ x ∈ [(0x804, 0xFFFFFFFF#32), (0x864, 0xFFFF000F), (0x868, 0xFFFFFFFF), (0x870, 0xFFFF0000), (0xB00, 0xFFFFFFFF)],
      MayRead s m (.io e x.1) r →
      ∃ t, exec (.rcRead m (.io e x.1)) s = .next { t with resp := .ok (g.ioGet x.1).toNat } ∧ (t.eng e).late = g.late ∧
        IoWritten s t e x.1 (g.ioGet x.1 &&& ~~~x.2)) ∧
    (MayRead s m (.die newt0 0x5014) r → exec (.nowLoRead m) s = .next { s with
      helio := { s.helio with latch := (s.timNow >>> (32 : Nat)).setWidth 32 }, resp := .ok (s.timNow.toNat % 2 ^ 32) }) ∧
    (MayRead s m (.io e 0x874) r → exec (.lastLoRead m e) s = .next { (s.modEng e fun h =>
      { h with timLastLatch := (h.timLast >>> (32 : Nat)).setWidth 32 }) with resp := .ok (g.timLast.toNat % 2 ^ 32) }) ∧
    (∀ (n : Fin 2) (k : Fin 16), let d := newtDie n
      MayRead s m (.die d (0x5108 + 16 * k)) r →
      ∃ t, exec (.timestampRead m n k) s = .next { t with resp := .ok (s.dGet d (0x5108 + 16 * k)).toNat } ∧
        DieWritten s t d (0x5100 + 16 * k) (s.dGet d (0x5100 + 16 * k) &&& 0x7FFFFFFF#32))

/-- R411: a timer that is enabled and has reached its target sets its engine's doorbell line and goes on by its period, or ends
where it has none. -/
def Obligations.timers : Prop :=
  ∀ (s : State) (t : RedId), let p := 0x7C00 + 16 * t.val
    let c := s.n0 p
    let target : Dword := s.n0 (p + 8) ++ s.n0 (p + 4)
    let per := (s.n0 (p + 12)).toNat % 2 ^ 16
    let due := c.getLsbD 31 = true ∧ (target - s.timNow).toInt ≤ 0
    (∀ e, s.physOf (c.toNat / 2 ^ 16 % 2 ^ 7) = some e → due → let next := target + BitVec.ofNat 64 (per * 65536)
      ∃ u, exec (.timerFire t) s = .next u ∧ u = { s with engines := s.engines.set e (u.eng e), dies := s.dies.set newt0 (u.die newt0) } ∧
        u.eng e = (s.eng e).ioPut 0x8CC ((s.eng e).ioGet 0x8CC ||| BitVec.ofNat 32 (2 ^ (16 + c.toNat % 16))) ∧
        { u.die newt0 with regs := [] } = { s.die newt0 with regs := [] } ∧
        (∀ q, q ≠ p → q ≠ p + 4 → q ≠ p + 8 → u.n0 q = s.n0 q) ∧
        (per = 0 → u.n0 p = c &&& 0x7FFFFFFF#32 ∧ u.n0 (p + 4) = s.n0 (p + 4) ∧ u.n0 (p + 8) = s.n0 (p + 8)) ∧
        (per ≠ 0 → u.n0 p = c ∧ u.n0 (p + 8) ++ u.n0 (p + 4) = next))

/-- R407 to R409: an engine's claim of a free resource makes it the holder, one of a held resource fails with result 2, one of no
such resource with result 3; its holder's world releases it, by a DMA or a chain access too, which no CLM_LAST records. R241,
R300, R240, R414, R455: DIN_TS and LAT_MEAS take the lowest free capture unit and give it back; an edge on a decision input sets
its line and is stamped where it is selected, and is the epoch pulse where SYNCIN names it (R229); the holder of a decision output
stages its value; CODE takes NEXT; a timer of Newt 0 that is not due (R411) does nothing. The model's choices in it: an event
whose condition fails changes nothing (log 3); `resp` is the record of the answer (log 8). -/
def Obligations.claims_and_captures : Prop :=
  (∀ (s : State) (t : RedId), let target : Dword := s.n0 (0x7C00 + 16 * t.val + 8) ++ s.n0 (0x7C00 + 16 * t.val + 4)
    ¬((s.n0 (0x7C00 + 16 * t.val)).getLsbD 31 = true ∧ (target - s.timNow).toInt ≤ 0) → exec (.timerFire t) s = .next s) ∧
  (∀ (s : State) (f : EngineId) (m : Master) (d : DieId) (r : Nat) (i : RegInfo), m = .pio f ∨ m = .alias_ f → r < 0x70 →
    MayWrite s m (.die d (0x7A00 + 4 * r)) i →
    let last (t : State) (x : Nat) : State :=
      { t.ioPut f 0xB00 (BitVec.ofNat 32 (d.val * 2 ^ 16 + r * 2 ^ 8 + x)) with resp := .ok 0 }
    let kind := (r < 0x40 ∧ portListed d r = true) ∨ (0x60 ≤ r ∧ r ≤ 0x67 ∧ r - 0x60 < if isGecko d then 8 else 4) ∨
      (0x68 ≤ r ∧ d = newt0)
    let free (x : Option Claim) : State := { s with dies := s.dies.set d { s.die d with
      claims := smPut (fun _ => none) (s.die d).claims r x } }
    (kind → s.claimOf d r = none →
      exec (.claim m d r) s = .next (last (free (some { holder := .engine f, world := s.world f })) 1)) ∧
    (∀ c, kind → s.claimOf d r = some c →
      exec (.claim m d r) s = .next (last s 2) ∧
      (c.world = s.world f → s.claimBusy d r = false → exec (.release m d r) s = .next (last (free none) 1)) ∧
      (c.world ≠ s.world f ∨ s.claimBusy d r = true → exec (.release m d r) s = .next (last s 3))) ∧
    (¬kind → exec (.claim m d r) s = .next (last s 3) ∧ exec (.release m d r) s = .next (last s 3)) ∧
    (s.claimOf d r = none → exec (.release m d r) s = .next (last s 3))) ∧
  (∀ (s : State) (m : Master) (d : DieId) (r : Nat) (i : RegInfo) (c : Claim), (∃ x, m = .dma x) ∨ (∃ w, m = .chain w) → r < 0x70 →
    MayWrite s m (.die d (0x7A00 + 4 * r)) i → s.claimOf d r = some c →
    (r < 0x40 ∧ portListed d r = true) ∨ (0x60 ≤ r ∧ r ≤ 0x67 ∧ r - 0x60 < if isGecko d then 8 else 4) ∨ (0x68 ≤ r ∧ d = newt0) →
    let ours := c.world = (accessOf s m).world ∧ s.claimBusy d r = false
    (ours → exec (.release m d r) s = .next { s with resp := .ok 0, dies := s.dies.set d { s.die d with
      claims := smPut (fun _ => none) (s.die d).claims r none } }) ∧
    (¬ours → exec (.release m d r) s = .next { s with resp := .ok 0 }) ∧ exec (.claim m d r) s = .next { s with resp := .ok 0 }) ∧
  (∀ (s : State) (m : Master) (n : Fin 2) (i : Fin 8) (l : Fin 72) (r : RegInfo) (k : Nat), let d := newtDie n
    let en := s.dGet d 0x5300
    let lat := s.dGet d 0x3704
    let lowest := k < 16 ∧ s.claimOf d (0x50 + k) = none ∧ ∀ j, j < k → s.claimOf d (0x50 + j) ≠ none
    let full := ∀ j, j < 16 → s.claimOf d (0x50 + j) ≠ none
    let only (t : State) (unit : Nat) (c : Option Claim) (ports : List Nat) : Prop :=
      t = { s with dies := s.dies.set d (t.die d), resp := .ok 0 } ∧
      { t.die d with regs := [], claims := [] } = { s.die d with regs := [], claims := [] } ∧
      (∀ j, t.claimOf d j = if j = 0x50 + unit then c else s.claimOf d j) ∧ ∀ q, q ∉ ports → t.dGet d q = s.dGet d q
    (MayWrite s m (.die d 0x5300) r →
      (en.getLsbD i = false → lowest → ∃ t, exec (.dinTsEnable m n i) s = .next t ∧
        only t k (some { holder := .decIn, world := (accessOf s m).world }) [0x5300, 0x5100 + 16 * k] ∧
        t.dGet d 0x5300 = setBit (setBit en i true) (8 + i.val) false ∧
        t.dGet d (0x5100 + 16 * k) = setFld (s.dGet d (0x5100 + 16 * k)) 19 16 i) ∧
      (en.getLsbD i = false → full → ∃ t, exec (.dinTsEnable m n i) s = .next t ∧
        DieWritten s t d 0x5300 (setBit en (8 + i.val) true)) ∧
      (en.getLsbD i = true → exec (.dinTsEnable m n i) s = .next { s with resp := .ok 0 }) ∧
      (en.getLsbD i = true → s.dinUnit n i = some k → ∃ t, exec (.dinTsDisable m n i) s = .next t ∧
        only t k none [0x5300, 0x5100 + 16 * k] ∧ t.dGet d 0x5300 = setBit en i false ∧
        t.dGet d (0x5100 + 16 * k) = s.dGet d (0x5100 + 16 * k) &&& 0x7FFFFFFF#32) ∧
      (en.getLsbD i = false → exec (.dinTsDisable m n i) s = .next { s with resp := .ok 0 })) ∧
    (MayWrite s m (.die d 0x3704) r →
      (lat.getLsbD 31 = false → lowest → ∃ t, exec (.latMeasEnable m n l) s = .next t ∧
        only t k (some { holder := .linkLatency, world := (accessOf s m).world }) [0x3704] ∧
        t.dGet d 0x3704 = BitVec.ofNat 32 (2 ^ 31 + k * 2 ^ 24 + l)) ∧
      (lat.getLsbD 31 = false → full → ∃ t, exec (.latMeasEnable m n l) s = .next t ∧
        DieWritten s t d 0x3704 (BitVec.ofNat 32 (2 ^ 30 + l))) ∧
      (lat.getLsbD 31 = true → exec (.latMeasEnable m n l) s = .next { s with resp := .ok 0 }) ∧
      (lat.getLsbD 31 = true → lat.toNat / 2 ^ 24 % 16 = k → ∃ t, exec (.latMeasDisable m n) s = .next t ∧
        only t k none [0x3704, 0x5100 + 16 * k] ∧ t.dGet d 0x3704 = lat &&& 0x7F#32 ∧
        t.dGet d (0x5100 + 16 * k) = s.dGet d (0x5100 + 16 * k) &&& 0x7FFFFFFF#32) ∧
      (lat.getLsbD 31 = false → ∃ t, exec (.latMeasDisable m n) s = .next t ∧
        DieWritten s t d 0x3704 ((lat &&& 0x7F#32) ||| (lat &&& 0x40000000#32))))) ∧
  (∀ (s : State) (k : Fin 16) (rising : Bool), let n : Fin 2 := if k.val < 8 then 0 else 1
    let d := newtDie n
    let cfg := s.n0 0x5000
    let root := cfg.getLsbD 31 = true ∧ s.helio.st = .locked
    s.inReset = false →
    (root → cfg.getLsbD 3 = true → cfg.toNat / 2 ^ 4 % 2 ^ 4 = k.val → rising = true → ∃ t, exec (.decInEdge k rising) s = .next t ∧
      t.timNow = BitVec.ofNat 64 (((s.n0 0x5020).toNat % 2 ^ 16 * 2 ^ 32 + (s.n0 0x501C).toNat) * 2 ^ 16) ∧ t.helio.st = .aligned ∧
      (t.n0 0x5004).toNat / 2 ^ 8 % 2 ^ 8 = 0 ∧ t.mem = s.mem ∧ t.pins.decIn = setBit s.pins.decIn k true) ∧
    (¬root →
    let base : State := { s with
      pins := { s.pins with decIn := setBit s.pins.decIn k rising }
      engines := if rising then .ofFn fun e => (s.eng e).setLine (48 + k.val) else s.engines }
    ((s.dGet d 0x5300).getLsbD (k.val % 8) = false → exec (.decInEdge k rising) s = .next base) ∧
    (∀ u, u < 16 → (s.dGet d 0x5300).getLsbD (k.val % 8) = true → s.dinUnit n (k.val % 8) = some u →
      let ctl := s.dGet d (0x5100 + 16 * u)
      let taken := ctl.toNat % 4 = 2 ∨ (ctl.toNat % 4 = 0 ∧ rising = true) ∨ (ctl.toNat % 4 = 1 ∧ rising = false)
      (taken → ctl.getLsbD 31 = false → ∃ t, exec (.decInEdge k rising) s = .next t ∧
        t = { base with dies := s.dies.set d (t.die d) } ∧ { t.die d with regs := [] } = { s.die d with regs := [] } ∧
        t.dGet d (0x5100 + 16 * u) = ctl ||| 0x80000000#32 ∧
        t.dGet d (0x5108 + 16 * u) ++ t.dGet d (0x5104 + 16 * u) = s.timNow &&& ~~~(0xF#64) ∧
        ∀ q, q ∉ [0x5100 + 16 * u, 0x5104 + 16 * u, 0x5108 + 16 * u] → t.dGet d q = s.dGet d q) ∧
      (¬taken → exec (.decInEdge k rising) s = .next base)))) ∧
  (∀ (s : State) (m : Master) (k : Fin 32) (v : Word) (r : RegInfo), let d := decNewt k
    (MayWrite s m (.die d (0x100 + k.val)) r → ∃ t, exec (.decStageWrite m k v) s = .next t ∧
      DieWritten s t d (0x100 + k.val) ((v &&& 1#32) ||| (s.dGet d (0x100 + k.val) &&& 0xFFFFFFFE#32)) ∧
      ∀ e, s.decHolder k = some e → t.decPin k = ((s.eng e).running && decide ((s.die d).mode ≠ 11) && v.getLsbD 0)) ∧
    let still := s.timNow.toNat % 65536 = 0 ∧ s.pins.outQuiet.getLsbD k = true ∧ s.pins.fineNew.getLsbD k = false
    (still → ∃ t, exec (.fineDelayApply k) s = .next { t with resp := s.resp } ∧
      let p := 0x5200 + 4 * (k.val % 16)
      DieWritten s t d p (setFld (s.dGet d p) 8 0 ((s.dGet d p).toNat / 2 ^ 16))) ∧
    (¬still → exec (.fineDelayApply k) s = .next s))

/-! ## Time -/

/-- R221 to R224, R227 to R230, and the model's own tick (log 2): a signal in range is locked to from FREE; the lock starts
TIM_NOW at 0 where the multipliers are within their limits, else it sets CFG_ERR; its loss, from LOCKING, LOCKED or ALIGNED, leads
to FREE, quarantines the Trigger-world engines of deterministic modes where the package ran from it, and on leaving ALIGNED breaks
the acknowledged changes of such engines into another deterministic mode (R249); HEL_CFG is written in FREE while every engine is
in MD0 or MD1; the root's epoch sets TIM_NOW; with no command waiting one fraction unit of time passes. The model's choices in it:
a step on an empty queue is a tick of time (log 2); how far an engine's own cycles are ahead of it (log 76); an event whose
condition fails changes nothing (log 3); `resp` is the record of the answer (log 8); measured quantities come with their commands
(log 69). -/
def Obligations.time_base : Prop :=
  ∀ (s : State), let cfg := s.n0 0x5000
    let rung (h : Helio) (t : State) : Prop := TimeOnly s t (fun e => (s.eng e).setLine 0) ∧
      t = { s with
        helio := h, engines := t.engines, pins := t.pins, pcie := t.pcie, timNow := t.timNow, fc := t.fc, dies := t.dies, fox := t.fox }
    (s.pending = [] → s.inReset = false → ∃ t, step s = .next t ∧ t.timNow = s.timNow + 1 ∧ (t.fc = s.fc ∨ t.fc = s.fc + 1) ∧
      TimeOnly s t s.eng ∧ t = { s with
        timNow := t.timNow, fc := t.fc, helio := { s.helio with kE := t.helio.kE, kF := t.helio.kF }, pins := t.pins
        engines := t.engines, fox := t.fox }) ∧
    (s.pending = [] → s.inReset = true → step s = .next s) ∧
    (∀ hz, s.inReset = false → s.helio.st = .free → cfg.toNat / 2 ^ 26 % 4 ≠ 2 → 10000000 ≤ hz → hz ≤ 250000000 →
      ∃ t, exec (.exprefPresent hz) s = .next t ∧ t.dies = s.dies ∧ t.timNow = s.timNow ∧ t.fc = s.fc ∧
        t.pins = s.pins ∧ t.fox = s.fox ∧ (∀ e, t.eng e = (s.eng e).setLine 0) ∧ rung { s.helio with st := .locking, expref := some hz } t) ∧
    (∀ hz, s.helio.st = .locking → s.helio.expref = some hz →
      let ok := cfg.toNat / 2 ^ 16 % 2 ^ 8 * hz ≤ 1650000000 ∧ cfg.toNat / 2 ^ 8 % 2 ^ 8 * hz ≤ 1250000000
      (ok → ∃ t, exec .multiplierLock s = .next t ∧ t.timNow = 0 ∧ t.dies = s.dies ∧ rung { s.helio with
        st := .locked, lockHz := hz, wasAligned := false, cal := none, slew := 0, slewAt := none
        kE := cfg.toNat / 2 ^ 16 % 2 ^ 8, kF := cfg.toNat / 2 ^ 8 % 2 ^ 8 } t) ∧
      (¬ok → ∃ t, exec .multiplierLock s = .next { t with resp := s.resp } ∧
        DieWritten s t newt0 0x5004 (s.n0 0x5004 ||| 0x00800000#32))) ∧
    (s.inReset = false → s.helio.st ≠ .free → ∃ t, exec .exprefLost s = .next t ∧ t.helio.st = .free ∧ t.helio.expref = none ∧
      t.helio.cal = none ∧ t.helio.slew = 0 ∧ t.n0 0x5004 = s.n0 0x5004 ||| 0x00400000#32 ∧ t.timNow = s.timNow ∧ t.mem = s.mem ∧
      ∀ e, let g := (s.eng e).setLine 0
        let stops := s.helio.st ≠ .locking ∧ g.world = .T ∧ determ g.mode = true
        let breaks (a : Arm) : Prop := s.helio.st = .aligned ∧ g.world = .T ∧ a.acked = true ∧ a.applied = false ∧
          ∃ m, a.mode = some m ∧ determ m = true ∧ m ≠ g.mode
        (stops → (t.eng e).mode = 11 ∧ (t.eng e).ioGet 0xB30 = 3 ∧ (t.eng e).gr = g.gr) ∧
        (¬stops → { t.eng e with arm := none, armed := [] } = { g with arm := none, armed := [] } ∧
          ((t.eng e).armed = [] ↔ g.armed = []) ∧ (g.arm = none → (t.eng e).arm = none) ∧
          ∀ a, g.arm = some a → (breaks a → (t.eng e).arm = some { a with broken := true }) ∧
            (¬breaks a → (t.eng e).arm = some a))) ∧
    (∀ m v r, MayWrite s m (.die newt0 0x5000) r → s.helio.st = .free → s.helio.expref = none →
      (∀ e, (s.eng e).mode.val ≤ 1) → v.toNat / 2 ^ 26 % 4 ≠ 3 → ∃ t, exec (.helCfgWrite m v) s = .next t ∧
        DieWritten s t newt0 0x5000 (v &&& 0xFCFFFFFF#32)) ∧
    (∀ m v r, MayWrite s m (.die newt0 0x5020) r →
      (cfg.getLsbD 31 = true → cfg.getLsbD 3 = false → s.helio.st = .locked → ∃ t, exec (.epochLoad m v) s = .next t ∧
        t.timNow = BitVec.ofNat 64 ((v.toNat % 2 ^ 16 * 2 ^ 32 + (s.n0 0x501C).toNat) * 2 ^ 16) ∧ t.helio.st = .aligned ∧
        (t.n0 0x5004).toNat / 2 ^ 8 % 2 ^ 8 = 0 ∧ TimeOnly s t (fun e => (s.eng e).setLine 0) ∧ t.mem = s.mem) ∧
      (¬(cfg.getLsbD 31 = true ∧ cfg.getLsbD 3 = false ∧ s.helio.st = .locked) → ∃ t, exec (.epochLoad m v) s = .next t ∧
        DieWritten s t newt0 0x5020 (v &&& 0xFFFF#32)))

/-- R231 to R234, R311: a package below another asks for the time, the other replies, offset and round trip come from the four
times, and a calibration removes its mean offset at once before ALIGNED and by phase moves after; an offset of more than 1,024
units leaves ALIGNED, and one of at most 16 comes back to it; a reply that does not come ends the calibration. The model's choices
in it: open values are free (log 1); an event whose condition fails changes nothing (log 3); the rounding of halves (log 21);
ports to packages below (log 26). -/
def Obligations.time_protocol : Prop :=
  ∀ (s : State) (p : PortId), let h := s.helio
    let stamp : Dword := s.timNow &&& ~~~(0xF#64)
    let port := s.ports[p]
    let packet (kind : Nat) (data : List Word) (q : Packet) : Prop := q = s.vc0 kind data
    (∀ c, h.cal = some c → s.upPort = some p → port.up = true → port.ttUnit.isSome = true → c.asked = none → 0 < c.left →
      (∀ n, c.last = some n → 64 ≤ s.periodsSince n) →
      ∃ t j q, exec .timeExchange s = .next t ∧ j < 16 ∧ packet 4 [BitVec.ofNat 32 h.exchNo, 0] q ∧
        (let t1 := stamp + BitVec.ofNat 64 (16 * j)
        t.helio = { h with
          exchNo := (h.exchNo + 1) % 65536
          cal := some { c with asked := some (h.exchNo, t1), last := some (s.timNow.toNat / 2 ^ 16), since := t1 } }) ∧
        t.ports = s.ports.set p (port.sent q) ∧ t.engines = s.engines ∧ t.mem = s.mem ∧ t.timNow = s.timNow) ∧
    (∀ k, Arrives s p k 4 → port.ttUnit.isSome = true →
      ∃ t, exec (.timeReq p k) s = .next t ∧ t.ports = s.ports.set p { port.sent (s.vc0 5 [stamp.setWidth 32,
          (stamp >>> (32 : Nat)).setWidth 32, stamp.setWidth 32, (stamp >>> (32 : Nat)).setWidth 32,
          BitVec.ofNat 32 ((k.data.getD 0 0).toNat % 2 ^ 16 * 2 ^ 16 +
            (if h.st = .aligned then 2 ^ 8 else 0) + (s.n0 0x5004).toNat / 2 ^ 8 % 2 ^ 8), 0]) with child := true } ∧
        t.engines = s.engines ∧ t.mem = s.mem ∧ t.helio = s.helio) ∧
    (∀ (c : Calib) (k : Packet) (n : Nat) (t1 t2 t3 : Dword) (w : Word), h.cal = some c → c.asked = some (n, t1) → s.upPort = some p → Arrives s p k 5 →
      k.data = [t2.setWidth 32, (t2 >>> (32 : Nat)).setWidth 32, t3.setWidth 32, (t3 >>> (32 : Nat)).setWidth 32, w, 0] →
      w.toNat / 2 ^ 16 = n → w.getLsbD 8 = true →
      ∃ t, exec (.timeRsp p k) s = .next t ∧ t.helio = { h with cal := some { c with
          left := c.left - 1, made := c.made + 1, asked := none, depth := w.toNat % 2 ^ 8, parentAligned := true
          sumTheta := c.sumTheta + ((stamp - t3).toInt - (t2 - t1).toInt + s.asym p)
          sumRtt := c.sumRtt + ((stamp - t1).toInt - (t3 - t2).toInt) } } ∧
        t.engines = s.engines ∧ t.mem = s.mem ∧ t.ports = s.ports ∧ t.timNow = s.timNow) ∧
    (∀ c, h.cal = some c → c.left = 0 → 0 < c.made →
      let theta := roundDiv c.sumTheta (2 * c.made)
      (h.st = .locked → h.wasAligned = false → c.second = false → ∃ t, exec .calibrationDone s = .next t ∧
        t.timNow = s.timNow - BitVec.ofInt 64 theta ∧ t.helio.st = .locked ∧ t.n0 0x5008 = BitVec.ofInt 32 theta ∧
        t.n0 0x500C = BitVec.ofInt 32 (roundDiv c.sumRtt (16 * c.made)) ∧
        (∃ c', t.helio.cal = some c' ∧ c'.second = true ∧ c'.left = 2 ^ ((s.n0 0x5000).toNat % 8 + 4)) ∧ t.engines = s.engines) ∧
      (h.st = .locked → h.wasAligned = false → c.second = true → -16 ≤ theta → theta ≤ 16 →
        ∃ t, exec .calibrationDone s = .next t ∧ t.helio.st = .aligned ∧ t.timNow = s.timNow ∧ t.helio.cal = none ∧
        t.helio.wasAligned = true ∧ (t.n0 0x5004).toNat / 2 ^ 8 % 2 ^ 8 = (c.depth + 1) % 2 ^ 8 ∧
        ∀ e, t.eng e = (s.eng e).setLine 0) ∧
      (h.st = .aligned → -1024 ≤ theta → theta ≤ 1024 → ∃ t, exec .calibrationDone s = .next t ∧
        t.helio = { h with cal := none, slew := theta } ∧ t.timNow = s.timNow ∧ t.engines = s.engines) ∧
      (h.st = .aligned → theta < -1024 ∨ 1024 < theta → ∃ t, exec .calibrationDone s = .next t ∧ t.timNow = s.timNow ∧
        t.helio = { h with cal := none, slew := theta, st := .locked } ∧ (t.n0 0x5004).getLsbD 21 = true ∧
        ∀ e, ((t.eng e).ioGet 0x8CC).getLsbD 0 = true) ∧
      (h.st = .locked → h.wasAligned = true → ∃ t, exec .calibrationDone s = .next t ∧ t.timNow = s.timNow ∧
        let small := -16 ≤ theta ∧ theta ≤ 16
        t.helio = { h with cal := none, slew := theta, st := if small then .aligned else .locked } ∧
        (small → (t.n0 0x5004).toNat / 2 ^ 8 % 2 ^ 8 = (c.depth + 1) % 2 ^ 8 ∧ ∀ e, t.eng e = (s.eng e).setLine 0) ∧
        (¬small → t.engines = s.engines))) ∧
    (let due := 10 * h.expref.getD h.lockHz ≤ s.periodsSince h.calAt;
      h.st = .aligned → s.upPort = some p → h.cal = none →
      (due → ∃ c, exec .recalibration s = .next { s with
        helio := { h with cal := some c, calAt := s.timNow.toNat / 2 ^ 16 } } ∧ c.left = 2 ^ ((s.n0 0x5000).toNat % 8 + 4) ∧
          c.made = 0 ∧ c.asked = none ∧ c.sumTheta = 0 ∧ c.sumRtt = 0 ∧ c.second = true) ∧
      (¬due → exec .recalibration s = .next s)) ∧
    (∀ c, h.cal = some c → c.left ≠ 0 →
      ((c.since + BitVec.ofNat 64 (2 ^ 32) - s.timNow).toInt ≤ 0 → ∃ t, exec .calibrationTimeout s = .next t ∧ t.helio.cal = none ∧
        (t.n0 0x5004).getLsbD 20 = true ∧ t.helio.st = (if h.st = .aligned then .locked else h.st) ∧
        (t.n0 0x5004).getLsbD 21 = ((s.n0 0x5004).getLsbD 21 || decide (h.st = .aligned)) ∧ t.timNow = s.timNow) ∧
      (0 < (c.since + BitVec.ofNat 64 (2 ^ 32) - s.timNow).toInt → exec .calibrationTimeout s = .next s)) ∧
    (let due := h.slew ≠ 0 ∧ h.wasAligned = true ∧ (h.st = .aligned ∨ h.st = .locked) ∧
        ∀ n, h.slewAt = some n → 1024 ≤ s.periodsSince n
      let move : Int := max (-16) (min 16 h.slew)
      (due → ∃ t, exec .phaseSlew s = .next t ∧ t.timNow = s.timNow - BitVec.ofInt 64 move ∧ t.pins.still = s.pins.still ∧
        t = { s with
          timNow := t.timNow, fc := t.fc, pins := t.pins
          helio := { h with
            slew := h.slew - move, slewAt := some (t.timNow.toNat / 2 ^ 16), kE := t.helio.kE, kF := t.helio.kF } }) ∧
      (¬due → exec .phaseSlew s = .next s))

/-! ## Commits -/

/-- R247, R248, R251, R312, R405, Table 8-6: GO starts the protocol towards the units of the set, or, with SCOPE = 1, of the group
here and in the packages below, to which an ARM packet leaves; or it aborts at once (invalid mode, time too close, a unit that the
writer may not name), or is ignored while armed; an ARM arms a unit, engine or die, or makes it send a NAK; a unit whose
conditions hold acknowledges. The model's choices in it: an event whose condition fails changes nothing (log 3); `resp` is the
record of the answer (log 8); ports to packages below (log 26); the order of GO reasons (log 28); FAIL_UNIT 127 (log 29); the
MD8ONLY half with M = 8 (log 77); a GO while armed stores nothing (log 105). -/
def Obligations.commit_start : Prop :=
  ∀ (s : State), let x := s.coord
    (∀ m v r, MayWrite s m (.die newt0 0x5400) r → let a := accessOf s m
      let scope := v.getLsbD 30
      let mode := v.toNat / 2 ^ 24 % 16
      let lead := max 16 (v.toNat % 2 ^ 16)
      let T : Dword := s.n0 0x5418 ++ s.n0 0x5414
      let ctl : Word := (v &&& 0x4FF00000#32) ||| BitVec.ofNat 32 lead
      let units : List UnitId := (List.finRange 108).filter fun u =>
        (s.n0 ((if scope then 0x5420 else 0x5404) + 4 * (u.val / 32))).getLsbD (u.val % 32)
      let host := a.host = true ∧ a.root = true
      let mayName (u : UnitId) : Prop :=
        if h : u.val < 100 then s.world ⟨u.val, h⟩ = .T ∧ scope = true ∨ scope = false ∧ (host ∨ s.world ⟨u.val, h⟩ = a.world)
        else scope = true ∨ host ∨ a.world = .T
      let mayTree := scope = false ∨ host ∨ a.world = .T
      let near := (T - (s.timNow + BitVec.ofNat 64 ((lead + 16) * 65536))).toInt ≤ 0
      let answer (t : State) (c : Coord) (stat : Word) : Prop :=
        t = { s with coord := c, dies := s.dies.set newt0 (t.die newt0), ports := t.ports, resp := .ok 0 } ∧ t.n0 0x5400 = ctl ∧ t.n0 0x5430 = stat ∧
        (∀ q, q ≠ 0x5400 → q ≠ 0x5430 → t.n0 q = s.n0 q) ∧ { t.die newt0 with regs := [] } = { s.die newt0 with regs := [] }
      let busy := s.n0 0x5430 &&& 0x00800000#32
      let fails (k unit : Nat) : Prop := ∃ t, exec (.timedCommitGo m v) s = .next t ∧
        t.ports = s.ports ∧ answer t { x with st := 3, own := true, units := [], down := [] }
          (busy ||| BitVec.ofNat 32 (k * 2 ^ 24 + s.devId * 2 ^ 7 + unit))
      (x.st = 1 → ∃ t, exec (.timedCommitGo m v) s = .next t ∧ DieWritten s t newt0 0x5430 (s.n0 0x5430 ||| 0x00800000#32)) ∧
      (x.st ≠ 1 → 12 ≤ mode → mode ≤ 14 → fails 5 127) ∧
      (x.st ≠ 1 → ¬(12 ≤ mode ∧ mode ≤ 14) → near → fails 4 127) ∧
      (x.st ≠ 1 → ¬(12 ≤ mode ∧ mode ≤ 14) → ¬near → ¬mayTree → fails 1 127) ∧
      (∀ u, x.st ≠ 1 → ¬(12 ≤ mode ∧ mode ≤ 14) → ¬near → mayTree → u ∈ units → ¬mayName u → (∀ w ∈ units, w < u → mayName w) → fails 1 u.val) ∧
      (x.st ≠ 1 → ¬(12 ≤ mode ∧ mode ≤ 14) → ¬near → mayTree → (∀ u ∈ units, mayName u) → ∃ t, exec (.timedCommitGo m v) s = .next t ∧
        let down := if scope then (List.finRange 4).filter s.childPort else []
        answer t { st := 1, seq := (x.seq + 1) % 65536, own := true, scope := scope, time := T, ctl := ctl, units := units, down := down
                   toUnit := (x.toUnit.filter fun w => w.2 ≠ .arm) ++ units.map fun u => (u, .arm) } busy ∧
        ∀ p : PortId, t.ports[p] = if p ∈ down then s.ports[p].sent (s.vc0 6
          [BitVec.ofNat 32 ((x.seq + 1) % 65536 * 2 ^ 16 + 1), ctl &&& 0x0FFFFFFF#32, T.setWidth 32, (T >>> (32 : Nat)).setWidth 32,
            0, 0, 0, 0]) else s.ports[p])) ∧
    (let fits (g : Engine) (m : Option (Fin 12)) (swap slotsw : Bool) : Prop :=
      g.clearing = 0 ∧ ¬(g.mode = 0 ∨ g.mode = 10 ∨ g.mode = 8 ∨ g.mode = 11) ∧ slotsw = false ∧
      (swap = true → (g.ioGet 0x81C).getLsbD (if g.activeB then 0 else 1) = true ∧
        ((g.ioGet 0x81C).getLsbD (if g.activeB then 2 else 3) = true → m = some 8)) ∧
      ∀ k, m = some k → g.world = .H ∨ k.val ∈ [0, 1, 4, 5, 10, 11] ∨ k = g.mode
    (∀ (u : UnitId) (e : EngineId), u.val = e.val → x.st = 1 → (u, TcMsg.arm) ∈ x.toUnit → let g := s.eng e
      let rest := x.toUnit.filter (· ≠ (u, .arm))
      let mode := x.ctl.toNat / 2 ^ 24 % 16
      let a : Arm := { seq := x.seq, time := x.time, mode := if h : mode < 12 then some ⟨mode, h⟩ else none
                       swap := x.ctl.getLsbD 23, entry := x.ctl.toNat / 2 ^ 21 % 4, slotsw := x.ctl.getLsbD 20, acked := false
                       remote := !x.own }
      let wakes := throughput g.mode = true ∧ mode < 12 ∧ throughput (Fin.ofNat 12 mode) = false ∧ g.vpwr = .asleep;
      (s.engReady e = true → fits g a.mode a.swap a.slotsw →
        exec (.arm (.unit u)) s = .next { (s.modEng e fun h => { h with
          arm := some a, armed := h.armed ++ (h.arm.filter fun y => y.acked).toList, vpwr := if wakes then .waking else h.vpwr, vwake := if wakes then 96 else h.vwake }) with
            coord := { x with toUnit := rest } }) ∧
      (g.mode ≠ 11 → g.world = .T → mode < 12 → mode ≠ g.mode.val → mode ∈ [2, 3, 6, 8, 9] → s.helio.st ≠ .aligned → x.ctl.getLsbD 23 = false →
        g.mode ≠ 0 → g.mode ≠ 10 →
        exec (.arm (.unit u)) s = .next { s with coord := { x with toUnit := rest, naks := x.naks ++ [u] } }) ∧
      (x.ctl.getLsbD 23 = true → (g.ioGet 0x81C).getLsbD (if g.activeB then 0 else 1) = false →
        ∃ t, exec (.arm (.unit u)) s = .next t ∧ t.coord = { x with toUnit := rest, naks := x.naks ++ [u] } ∧
          (t.eng e).arm = g.arm ∧ (t.eng e).mode = g.mode ∧ ((t.eng e).ioGet 0xB10).toNat / 2 ^ 4 % 4 = 2)) ∧
    (∀ (u : UnitId) (d : DieId), u.val = 100 + d.val → x.st = 1 → (u, TcMsg.arm) ∈ x.toUnit → x.ctl.getLsbD 20 = false →
      let mode := x.ctl.toNat / 2 ^ 24 % 16
      let left : State := { s with coord := { x with toUnit := x.toUnit.filter (· ≠ (u, .arm)) } }
      let usable := isGecko d = true → (s.n0 0x7E00).getLsbD (24 + d.val) = true
      ((s.die d).mode ≠ 11 → usable → (mode ∈ [1, 2, 9, 11, 15] ∨ mode = (s.die d).mode.val ∧ mode ≠ 0) →
        exec (.arm (.unit u)) s = .next (left.modDie d fun y => { y with
          armed := y.armed ++ (y.arm.filter fun b => b.acked).toList
          arm := some { seq := x.seq, time := x.time, mode := if h : mode < 12 then some ⟨mode, h⟩ else none, swap := x.ctl.getLsbD 23
                        entry := x.ctl.toNat / 2 ^ 21 % 4, slotsw := false, acked := false, remote := !x.own } })) ∧
      (((s.die d).mode ≠ 11 ∧ mode ∈ [3, 4, 5, 6, 7, 8] ∧ mode ≠ (s.die d).mode.val) ∨ ((s.die d).mode = 11 ∧ mode = 15) ∨ ¬usable →
        exec (.arm (.unit u)) s = .next { left with coord := { left.coord with naks := x.naks ++ [u] } })) ∧
    (∀ (p : PortId) (k : Packet), Arrives s p k 6 → s.upPort = some p → x.st = 1 → k.data.length = 8 →
      let w (i : Nat) : Word := k.data.getD i 0
      (w 0).toNat % 16 = 1 →
      exec (.arm (.port p k)) s = .next { s with ports := s.ports.set p (s.ports[p].sent (s.vc0 6
        [(w 0 &&& 0xFFFFFFF0#32) ||| 3, w 1, w 2, w 3, BitVec.ofNat 32 (127 * 2 ^ 9 + s.devId), 0, 0, 0])) }) ∧
    (∀ (u : UnitId) (e : EngineId) (a : Arm), u.val = e.val → (s.eng e).arm = some a → let g := s.eng e
      let waits := (∃ c : Fin 12, a.mode = some c ∧ throughput c = false) ∧
        ¬(g.sbuf = [] ∧ (throughput g.mode = true → g.vpwr = .on));
      (a.acked = false → s.engReady e = true → fits g a.mode a.swap a.slotsw → ¬waits → exec (.unitAcknowledge u) s = .next { (s.modEng e fun h => { h with
        arm := some { a with acked := true } }) with coord := { x with acks := x.acks ++ [u] } }) ∧
      (a.acked = true ∨ waits → exec (.unitAcknowledge u) s = .next s)) ∧
    (∀ (u : UnitId) (d : DieId) (a : Arm), u.val = 100 + d.val → (s.die d).arm = some a → a.acked = false →
      (s.die d).mode ≠ 11 → a.slotsw = false → (∀ k, a.mode = some k → k.val ∈ [1, 2, 9, 11]) →
      (isGecko d = true → (s.n0 0x7E00).getLsbD (24 + d.val) = true) →
      exec (.unitAcknowledge u) s = .next { (s.modDie d fun y => { y with arm := some { a with acked := true } }) with
        coord := { x with acks := x.acks ++ [u] } }))

/-- R248, R250, Table 8-7: acknowledgements are gathered; a NAK, or an acknowledgement missing at D, aborts, with the ABORT
on its way to every unit and package armed; a complete commit stands from D; an ABORT discards the arm of its own commit, or
sends a unit that has applied its change to MD11, and leaves the arm of another commit; at T an acknowledged unit applies its
change, and not before, though a later commit's ARM has reached it since; a commit into the present mode changes nothing but SLIP
(R418). The model's choices in it: an event whose condition fails changes nothing (log 3); FAIL_UNIT 127 and
FAIL_DEV (log 29); the MD8ONLY half with M = 8 (log 77); a commit into the present mode (log 113). -/
def Obligations.commit_end : Prop :=
  ∀ (s : State), let x := s.coord
    let aborted (t : State) (r unit : Nat) (y : Coord) : Prop :=
      t.coord = { y with
        st := 3, toUnit := (x.toUnit.filter fun w => w.2 ≠ .arm) ++ x.units.map fun u => (u, .abort x.seq) } ∧
      t.n0 0x5430 = (s.n0 0x5430 &&& 0x00800000#32) ||| BitVec.ofNat 32 (r * 2 ^ 24 + s.devId * 2 ^ 7 + unit) ∧
      (∀ e, t.eng e = (s.eng e).setLine 5) ∧ t.mem = s.mem ∧
      ∀ p : PortId, t.ports[p] = if p ∈ x.down then s.ports[p].sent (s.vc0 6
        [BitVec.ofNat 32 (x.seq * 2 ^ 16 + 4), x.ctl &&& 0x0FFFFFFF#32, x.time.setWidth 32, (x.time >>> (32 : Nat)).setWidth 32,
          0, 0, 0, 0]) else s.ports[p]
    (∀ u : UnitId, x.own = true → x.st = 1 →
      (u ∈ x.acks → exec (.commitAck (.unit u)) s = .next { s with coord := { x with
        acks := x.acks.filter (· ≠ u), acked := x.acked ++ [u] } }) ∧
      (u ∉ x.acks → exec (.commitAck (.unit u)) s = .next s) ∧
      (u ∈ x.naks → ∃ t, exec (.commitNak (.unit u)) s = .next t ∧ aborted t 1 u.val { x with naks := x.naks.filter (· ≠ u) }) ∧
      (u ∉ x.naks → exec (.commitNak (.unit u)) s = .next s)) ∧
    (let D := x.time - BitVec.ofNat 64 (max 16 (x.ctl.toNat % 2 ^ 16) * 65536)
      let all := (∀ u ∈ x.units, u ∈ x.acked) ∧ ∀ p ∈ x.down, p ∈ x.downAcked
      x.own = true → x.st = 1 → (0 < (D - s.timNow).toInt → exec .ackDeadline s = .next s) ∧
      ((D - s.timNow).toInt ≤ 0 → all → ∃ t, exec .ackDeadline s = .next t ∧ t.coord = { x with st := 2 } ∧
        (∀ e, t.eng e = (s.eng e).setLine 5) ∧ t.dies = s.dies ∧ t.ports = s.ports ∧ t.mem = s.mem) ∧
      (∀ u pre post, (D - s.timNow).toInt ≤ 0 → x.units = pre ++ u :: post → (∀ w ∈ pre, w ∈ x.acked) → u ∉ x.acked →
        ∃ t, exec .ackDeadline s = .next t ∧ aborted t 2 u.val x)) ∧
    (∀ (u : UnitId) (e : EngineId) (a : Arm) (n : Nat) (pre post : List (UnitId × TcMsg)), u.val = e.val →
      x.toUnit = pre ++ (u, .abort n) :: post → (∀ w, w ∈ pre → w.1 = u → w.2 = .arm) → let g := s.eng e
      let left : State := { s with coord := { x with toUnit := pre ++ post } }
      let holds (y : Arm) : Prop := y ∈ g.armed ∨ g.arm = some y
      ((∀ y, holds y → y.seq ≠ n) → exec (.commitAbort (.unit u)) s = .next left) ∧
      ((∀ y, holds y → y.seq = n → y.applied = false) → exec (.commitAbort (.unit u)) s = .next (left.modEng e fun h => { h with
        arm := h.arm.filter fun y => y.seq ≠ n, armed := h.armed.filter fun y => y.seq ≠ n })) ∧
      (holds a → a.seq = n → a.applied = true → g.mode ≠ 11 → ∃ t, exec (.commitAbort (.unit u)) s = .next t ∧ OnlyEngine left t e ∧
        (t.eng e).mode = 11 ∧ (t.eng e).ioGet 0xB30 = 2 ∧ (t.eng e).arm = g.arm.filter (fun y => y.seq ≠ n) ∧
        (t.eng e).armed = g.armed.filter (fun y => y.seq ≠ n) ∧ (t.eng e).file.1 = g.file.1)) ∧
    (∀ (u : UnitId) (e : EngineId) (a : Arm) (m : Fin 12), u.val = e.val → a.acked = true → a.applied = false →
      let g := s.eng e
      let done (h : Engine) : Prop := h.armed ++ h.arm.toList =
        (g.armed ++ g.arm.toList).map fun y => if y.seq = a.seq then { y with applied := true } else y
      g.armed = [] ∧ g.arm = some a ∨ g.armed = [a] ∧ (∃ y, g.arm = some y ∧ y.acked = false ∧ y.seq ≠ a.seq) →
      (0 < (a.time - s.engEdge e).toInt → exec (.commitApply u) s = .next s) ∧
      ((a.time - s.engEdge e).toInt ≤ 0 → a.broken = false → a.mode = some m → m ≠ 11 → m ≠ g.mode →
        ¬(g.mode = 11 ∨ g.mode = 0 ∨ g.mode = 10) →
        (g.world = .T → determ m = true → s.helio.st = .aligned) →
        (a.swap = true → (g.ioGet 0x81C).getLsbD (if g.activeB then 0 else 1) = true ∧
          ((g.ioGet 0x81C).getLsbD (if g.activeB then 2 else 3) = true → m = 8)) →
        (g.mode = 8 → (g.ioGet 0x81C).getLsbD (if g.activeB then 3 else 2) = false) →
        ∃ t, exec (.commitApply u) s = .next t ∧ OnlyEngine s t e ∧ (t.eng e).mode = m ∧ (t.eng e).slip = 0 ∧
          done (t.eng e) ∧ (t.eng e).inflight = g.inflight ∧ (t.eng e).units = g.units ∧
          (t.eng e).gr = g.gr ∧ (t.eng e).vr = g.vr ∧ (t.eng e).pr = g.pr ∧ (t.eng e).io = g.io ∧
          let v := g.ioGet (0xB20 + 4 * (a.entry % 4))
          (t.eng e).pc = (if a.swap then BitVec.ofNat 32 (if g.activeB then v.toNat % 2 ^ 12 else v.toNat / 2 ^ 16 % 2 ^ 12) else g.pc) ∧
          (t.eng e).activeB = (g.activeB != a.swap)) ∧
      ((a.time - s.engEdge e).toInt ≤ 0 → a.broken = false → a.mode = some g.mode → a.swap = false →
        ¬(g.mode = 11 ∨ g.mode = 0 ∨ g.mode = 10) → ∃ t, exec (.commitApply u) s = .next t ∧ OnlyEngine s t e ∧ done (t.eng e) ∧
          { t.eng e with arm := none, armed := [] } = { g with slip := 0, arm := none, armed := [] }) ∧
      ((a.time - s.engEdge e).toInt ≤ 0 → g.mode ≠ 11 →
        (a.broken = true ∨ (g.world = .T ∧ (∃ c : Fin 12, a.mode = some c ∧ determ c = true ∧ c ≠ g.mode) ∧ s.helio.st ≠ .aligned)) →
        ∃ t, exec (.commitApply u) s = .next t ∧ OnlyEngine s t e ∧ (t.eng e).mode = 11 ∧ (t.eng e).ioGet 0xB30 = 2)) ∧
    (∀ (u : UnitId) (d : DieId) (a : Arm) (m : Fin 12), u.val = 100 + d.val → (s.die d).arm = some a → (s.die d).armed = [] → a.acked = true →
      a.applied = false → a.slotsw = false → a.broken = false → a.mode = some m → m ≠ 10 → m ≠ 11 → (s.die d).mode ≠ 11 →
      (a.time - s.timNow).toInt ≤ 0 → (s.die d).mode ≠ m → exec (.commitApply u) s = .next (s.modDie d fun y => { y with
        mode := m, qreason := 0, arm := some { a with applied := true } }))

/-- R399 to R404, R376, R377, Table 13-7: a proposal of an item that may be staged waits for a confirmation of the other side with
its digest; a wrong one, or none in 2^24 fc, discards it with an alarm; a confirmed value comes into force (a world map, a window,
a gate table, a key, an object, a DEC_OUT claim, the debug permits), an epoch or a key reporting completion, and ending the
proposal, once the accesses checked before it have been made (R392, R402); sealing closes the open state; the end of a world
change clears the engine. The model's choices in it: an event whose condition fails changes nothing (log 3); `resp` is the record
of the answer (log 8). -/
def Obligations.dual_commit : Prop :=
  ∀ (s : State) (m : Master) (v : Word) (r : RegInfo), let l := s.lark
    let w := if (accessOf s m).host then World.H else (accessOf s m).world
    let mine := match w with | .T => l.sideT | .H => l.sideH
    let set (l' : Lark) : State := { s with lark := l', resp := .ok 0 }
    let digest := crc32c ([l.prop.item, BitVec.ofNat 32 l.seq.toNat, l.prop.val[0], l.prop.val[1], l.prop.val[2], l.prop.val[3]].flatMap
      fun x => leBytes 4 x.toNat)
    let alarmed (t : State) (last : LarkLast) (resp : Resp) : Prop :=
      t = { s with lark := { l with proposed := false, last := last, confirmed := none, alarm := true }, resp := resp
                   engines := .ofFn fun e => (s.eng e).setLine 6, pcie := t.pcie }
    (MayWrite s m (.die newt0 0x7614) r →
      (l.proposed = true ∨ l.old ≠ none → exec (.propose m v) s = .next (set { l with last := .busy })) ∧
      (l.proposed = false → l.old = none → s.larkValid mine = false → exec (.propose m v) s = .next (set { l with last := .refused })) ∧
      (l.proposed = false → l.old = none → s.larkValid mine = true → l.opened = false → exec (.propose m v) s = .next (set { l with
        prop := mine, seq := l.seq + 1, side := w, proposed := true, since := s.fc })) ∧
      (l.proposed = false → l.old = none → mine.item = 0x300 → l.opened = true → exec (.propose m v) s = .next { set (
        if s.checkedUses = [] ∧ s.heldOuter = false then { l with last := .committed, confirmed := none }
        else { l with confirmed := none, old := some s.checkedUses, gen := l.gen + 1 }) with
        sealKey := mine.val[3] ++ mine.val[2] ++ mine.val[1] ++ mine.val[0] })) ∧
    (MayWrite s m (.die newt0 0x7618) r →
      (l.proposed = false ∨ l.confirmed ≠ none ∨ l.old ≠ none → exec (.confirm m v) s = .next { s with resp := .ok 0 }) ∧
      (l.proposed = true → l.confirmed = none → l.old = none → w = l.side → exec (.confirm m v) s = .next (set { l with last := .sameSide })) ∧
      (l.proposed = true → l.confirmed = none → l.old = none → w ≠ l.side → v ≠ digest → ∃ t, exec (.confirm m v) s = .next t ∧
        alarmed t .mismatch (.ok 0)) ∧
      (l.proposed = true → l.confirmed = none → l.old = none → w ≠ l.side → v = digest → s.larkValid l.prop = false →
        exec (.confirm m v) s = .next (set { l with proposed := false, last := .refused, confirmed := none })) ∧
      (l.proposed = true → l.confirmed = none → l.old = none → w ≠ l.side → v = digest → s.larkValid l.prop = true →
        exec (.confirm m v) s = .next (set { l with confirmed := some (s.fc + 16) }))) ∧
    (let due := l.proposed = true ∧ l.confirmed = none ∧ l.old = none ∧ l.since + 2 ^ 24 ≤ s.fc;
      (due → ∃ t, exec .larkTimeout s = .next t ∧ alarmed t .timeout s.resp) ∧ (¬due → exec .larkTimeout s = .next s)) ∧
    (∀ u, l.old = some u →
      ((∃ x, x ∈ u ∧ x ∈ s.checkedUses) ∨ s.heldOld = true → exec .valueInForce s = .next s) ∧
      ((∀ x, x ∈ u → x ∉ s.checkedUses) → s.heldOld = false → exec .valueInForce s = .next { s with
        lark := { l with last := .committed, old := none, proposed := false, confirmed := none } })) ∧
    (l.proposed = true → l.confirmed ≠ none → l.old = none →
      let done : Lark := { l with proposed := false, last := .committed, confirmed := none }
      let waits : Lark := if s.checkedUses = [] ∧ s.heldOuter = false then done else
        { l with confirmed := none, old := some s.checkedUses, gen := l.gen + 1 }
      let only (t : State) (ports : List Nat) : Prop := t = { s with lark := done, dies := s.dies.set newt0 (t.die newt0) } ∧
        { t.die newt0 with regs := [] } = { s.die newt0 with regs := [] } ∧ ∀ q, q ∉ ports → t.n0 q = s.n0 q
      let x := l.prop.val
      let moved (e : EngineId) : Engine :=
        let to_ : World := if (x[e.val / 32]'(by omega)).getLsbD (e.val % 32) then .H else .T
        if to_ = s.world e then s.eng e else { s.eng e with world := to_, clearing := 2048 }
      (l.prop.item = 0x300 → exec .valueInForce s = .next { s with lark := waits, sealKey := x[3] ++ x[2] ++ x[1] ++ x[0] }) ∧
      (l.prop.item = 1 → exec .valueInForce s = .next { s with lark := done, engines := .ofFn moved }) ∧
      (l.prop.item = 0x400 → ∃ t, exec .valueInForce s = .next t ∧ t = { s with lark := waits, objects := t.objects } ∧
        ∀ i, t.obj i = if i = x[0].toNat % 2 ^ 12 then { valid := x[1].getLsbD 31, world := if x[1].getLsbD 30 then .H else .T
                                                         epoch := x[1].setWidth 10 } else s.obj i) ∧
      (l.prop.item.toNat / 32 = 8 → ∃ t, exec .valueInForce s = .next { t with resp := s.resp, lark := done } ∧
        DieWritten s t newt0 (0x7680 + 4 * (l.prop.item.toNat % 32)) x[0]) ∧
      (∀ i, i < 2 → l.prop.item.toNat = 0x200 + i → ∃ t, exec .valueInForce s = .next t ∧
        only t [0x7660 + 8 * i, 0x7664 + 8 * i] ∧ t.n0 (0x7660 + 8 * i) = x[0] ∧ t.n0 (0x7664 + 8 * i) = x[1]) ∧
      (l.prop.item = 0x600 → ∃ t, exec .valueInForce s = .next t ∧ only t [0x7650, 0x7654, 0x7658, 0x765C] ∧
        t.n0 0x7650 = x[0] ∧ t.n0 0x7654 = x[1] ∧ t.n0 0x7658 = x[2] ∧ t.n0 0x765C = x[3]) ∧
      (∀ e : EngineId, l.prop.item = 0x500 → x[0].toNat / 2 ^ 8 % 2 ^ 7 = e.val → let k := x[0].toNat % 2 ^ 5
        let d := decNewt k
        ∃ t, exec .valueInForce s = .next t ∧ t = { s with lark := done, dies := s.dies.set d (t.die d) } ∧
          { t.die d with regs := [], claims := [] } = { s.die d with regs := [], claims := [] } ∧
          (∀ i, t.claimOf d i = if i ≠ 0x40 + k % 16 then s.claimOf d i else if x[0].getLsbD 15 then none
            else some { holder := .engine e, world := s.world e }) ∧
          t.dGet d (0x100 + k) = 0 ∧ ∀ q, q ≠ 0x100 + k → t.dGet d q = s.dGet d q)) ∧
    (MayWrite s m (.die newt0 0x7634) r → exec (.seal m v) s = .next (
      if (accessOf s m).root = true ∨ (accessOf s m).world = .H then set { l with opened := false } else { s with resp := .ok 0 })) ∧
    (∀ e, ((s.eng e).clearing = 0 → exec (.worldClear e) s = .next s) ∧
      ((s.eng e).clearing ≠ 0 → ∃ t, exec (.worldClear e) s = .next t ∧ let g := t.eng e
        g.clearing = 0 ∧ g.gr = .replicate 32 0 ∧ g.vr = .replicate 16 0 ∧ g.pr = .replicate 8 0 ∧ g.units = .replicate 16 {} ∧
        g.lc = 0 ∧ g.ra = 0 ∧ g.pc = 0 ∧ g.astat = 0 ∧ g.launch = 0 ∧ g.imem = [] ∧ g.inflight = [] ∧ g.world = (s.eng e).world ∧ g.mode = (s.eng e).mode ∧
        g.ioGet 0x880 = 0 ∧ g.ioGet 0x884 = 0 ∧ (g.ioGet 0x81C).toNat % 16 = 0 ∧
        (∀ a, memByte t.mem a = if 0x10000000 + e.val * 0x40000 ≤ a ∧ a < 0x10000000 + (e.val + 1) * 0x40000 then 0
          else memByte s.mem a) ∧
        ∀ f, f ≠ e → t.eng f = s.eng f))

/-! ## Tokens and the host -/

/-- R393, R395, R396, R448: a mint, before or after the seal, fills in issuer, epoch and seal, or records why it is refused; a
slot is bound once, by a token that passes steps 1 to 3; a host request through it is made under its token, or refused; a ring is
sent as its vector, or is pending. The model's choices in it: `resp` is the record of the answer (log 8); the order of mint
reasons (log 10); masked vectors (log 12); the byte order of a seal (log 24); AES-CMAC as published (log 70); a request is made at
once along its way (log 84); the world of a mint by a writer with ROOT (log 93); a mint that succeeds clears MERR (log 110); what
the endpoint takes while it is in reset or its link is down (log 116). -/
def Obligations.tokens_and_host : Prop :=
  (∀ (s : State) (m : Master) (v : Word) (r : RegInfo), MayWrite s m (.die newt0 0x7718) r →
    let m0 := s.n0 0x7710
    let m2 : Word := (v &&& 0x3FFF#32) ||| (s.n0 0x7718 &&& 0xFFFFC000#32)
    let o := s.obj (m0.toNat % 2 ^ 12)
    let w := if (accessOf s m).root then o.world else (accessOf s m).world
    let log := m2.toNat / 2 ^ 8 % 2 ^ 6
    let form := m0.toNat / 2 ^ 20 % 2 ^ 11 = 0 ∧ 4 ≤ log ∧ log ≤ 31 ∧
      (m2.toNat % 2 ^ 8 * 2 ^ 32 + (s.n0 0x7714).toNat) % 2 ^ log = 0
    let base := m2.toNat % 2 ^ 8 * 2 ^ 32 + (s.n0 0x7714).toNat
    let x := base % 2 ^ 31
    let n := 2 ^ log
    let entry (k : Nat) : Word := s.n0 (0x7680 + 4 * k)
    let bit (right world : Nat) : Nat := if w = .T then right else world
    let granted := (∃ k, k < 32 ∧ (entry k).getLsbD 31 = true ∧ (entry k).toNat % 2 ^ 15 * 65536 ≤ x ∧
        x + n ≤ (entry k).toNat % 2 ^ 15 * 65536 + 2 ^ ((entry k).toNat / 2 ^ 22 % 2 ^ 5) ∧
        (m0.getLsbD 16 = true → (entry k).getLsbD (bit 27 29) = true) ∧
        (m0.getLsbD 17 = true → (entry k).getLsbD (bit 28 30) = true)) ∨
      (∃ e : EngineId, 0x10000000 + e.val * 0x40000 ≤ x ∧ x + n ≤ 0x10000000 + (e.val + 1) * 0x40000 ∧ s.world e = w) ∨
      (m0.getLsbD 18 = true ∧ ((0x18000000 ≤ x ∧ x + n ≤ 0x18640000) ∨ (0x1C000000 ≤ x ∧ x + n ≤ 0x20000000)))
    let elsewhere := base / 2 ^ 31 ≠ s.devId
    let result (t : State) (merr : Nat) (ports : List Nat) : Prop :=
      t = { s with dies := s.dies.set newt0 (t.die newt0), mintWorld := t.mintWorld, resp := .ok 0 } ∧
      { t.die newt0 with regs := [] } = { s.die newt0 with regs := [] } ∧ t.n0 0x7718 = m2 ∧
      t.n0 0x7730 = (s.n0 0x7730 &&& 0xF0FFFFFF#32) ||| BitVec.ofNat 32 (merr * 2 ^ 24) ∧
      ∀ q, q ∉ 0x7718 :: 0x7730 :: ports → t.n0 q = s.n0 q
    let refused (merr : Nat) : Prop := ∃ t, exec (.mint m v) s = .next t ∧ result t merr [] ∧ t.mintWorld = s.mintWorld
    let root := m0.getLsbD 31
    ((o.valid = false ∨ o.world ≠ w) → refused 1) ∧
    (o.valid = true → o.world = w → root = true → s.lark.opened = false → refused 2) ∧
    (o.valid = true → o.world = w → root = false → s.lark.opened = false → ¬elsewhere → ¬granted → refused 3) ∧
    let may := o.valid = true ∧ o.world = w ∧ (s.lark.opened = true ∨ (root = false ∧ (elsewhere ∨ granted)))
    (may → ¬form → refused 4) ∧
    (may → form → ∃ t, exec (.mint m v) s = .next t ∧
      result t 0 [0x7720, 0x7724, 0x7728, 0x772C] ∧ t.mintWorld = w ∧
      let tok : BitVec 128 := t.n0 0x772C ++ t.n0 0x7728 ++ t.n0 0x7724 ++ t.n0 0x7720
      tok.toNat % 2 ^ 12 = m0.toNat % 2 ^ 12 ∧ tok.toNat / 2 ^ 12 % 2 ^ 12 = s.devId ∧ tok.toNat / 2 ^ 24 % 2 ^ 16 = m0.toNat / 2 ^ 16 ∧
      tok.toNat / 2 ^ 40 % 2 ^ 32 = (s.n0 0x7714).toNat ∧ tok.toNat / 2 ^ 72 % 2 ^ 8 = m2.toNat % 2 ^ 8 ∧
      tok.toNat / 2 ^ 80 % 2 ^ 6 = log ∧ tok.toNat / 2 ^ 86 % 2 ^ 10 = o.epoch.toNat ∧
      t.n0 0x772C = sealOf s.sealKey tok)) ∧
  (∀ (s : State) (i : SlotId), s.hostUp = true → let h := s.hslots[i]
    let tok := h.token
    let into (x : HSlot) : State := { s with hslots := s.hslots.set i x }
    ((h.bound = true ∨ (s.lark.opened = true ∧ i = 0)) → exec (.bind i) s = .next (into { h with err := 5 })) ∧
    (h.bound = false → (s.lark.opened = false ∨ i ≠ 0) →
      (∀ k, s.tokIdentity tok = some k → exec (.bind i) s = .next (into { h with err := k })) ∧
      (s.tokIdentity tok = none → tok.toNat / 2 ^ 80 % 2 ^ 6 < 12 → exec (.bind i) s = .next (into { h with err := 4 })) ∧
      (s.tokIdentity tok = none → 12 ≤ tok.toNat / 2 ^ 80 % 2 ^ 6 →
        exec (.bind i) s = .next (into { h with bound := true, stale := false, err := 0 })))) ∧
  (∀ (s : State) (i : SlotId) (x n data : Nat) (wr : Bool), (s.hostUp = false ∨ (wr = true ∧ 256 < n)) →
    exec (.hostRequest i x wr n data) s = .next { s with resp := .bus 1 }) ∧
  (∀ (s : State) (i : SlotId) (x n data : Nat), s.hostUp = true → n ≤ 256 → s.hslots[i].bound = true → s.lark.opened = false → 0 < n →
    let tok := s.hslots[i].token
    let log := tok.toNat / 2 ^ 80 % 2 ^ 6
    let a := tok.toNat / 2 ^ 40 % 2 ^ 40 + x
    let y := a % 2 ^ 31
    let refused (wr : Bool) (t : State) : Prop :=
      (wr = false → t = { s with resp := .cap 1 }) ∧
      (wr = true → t = { s with resp := .cap 1, dies := s.dies.set newt0 (t.die newt0) } ∧
        { t.die newt0 with regs := [] } = { s.die newt0 with regs := [] } ∧ (∀ q, q ≠ 0x7730 → t.n0 q = s.n0 q) ∧
        (t.n0 0x7730).toNat = (s.n0 0x7730).toNat + (if (s.n0 0x7730).toNat % 2 ^ 16 = 0xFFFF then 0 else 1))
    (∀ wr, 2 ^ log < x + n → ∃ t, exec (.hostRequest i x wr n data) s = .next t ∧ refused wr t) ∧
    (∀ wr, x + n ≤ 2 ^ log → a / 2 ^ 31 = s.devId → s.hslots[i].stale = true →
      ∃ t, exec (.hostRequest i x wr n data) s = .next t ∧ refused wr t) ∧
    (x + n ≤ 2 ^ log → a / 2 ^ 31 = s.devId → s.hslots[i].stale = false → s.tokSealed tok = true → s.tokObject tok = true →
      a + n ≤ tok.toNat / 2 ^ 40 % 2 ^ 40 + 2 ^ log → PoolAt s y n → FabricIdle s none →
      (tok.getLsbD 24 = true → s.masterCheck (s.whoOf (.host i)) y n false = none →
        ∃ t, exec (.hostRequest i x false n data) s = .next t ∧
          t = { s with dies := t.dies, resp := .ok (memNat s.mem y n) } ∧ Granted s t (s.wayTo newt0 a n)) ∧
      (tok.getLsbD 25 = true → s.masterCheck (s.whoOf (.host i)) y n true = none →
        ∃ t, exec (.hostRequest i x true n data) s = .next t ∧
          t = { s with dies := t.dies, mem := t.mem, resp := .ok 0 } ∧ Granted s t (s.wayTo newt0 a n) ∧
          ∀ z, memByte t.mem z = (strobed y n (fullStrobe n) data z).getD (memByte s.mem z)))) ∧
  ∀ (s : State) (m : Master) (v : Word) (r : RegInfo), MayWrite s m (.die newt0 0x7F40) r → let n := v.toNat % 2 ^ 6
    let on := s.pcie.enable = true ∧ s.pins.perst = true
    let waits := s.pcie.fmask = true ∨ (s.bar0 (0xC00 + 16 * n + 12)).getLsbD 0 = true ∨ s.pcie.link = false
    ((n < 8 ∨ ¬on) → exec (.hostRing m v) s = .next { s with resp := .ok 0 }) ∧
    (8 ≤ n → on → waits → exec (.hostRing m v) s = .next { s with
      resp := .ok 0, pcie := { s.pcie with pend := s.pcie.pend ||| BitVec.twoPow 64 n } }) ∧
    (8 ≤ n → on → ¬waits → exec (.hostRing m v) s = .next { s with
      resp := .ok 0, pcie := { s.pcie with sent := s.pcie.sent ++ [n] } })

/-! ## DMA -/

/-- R328, R335, R336, R341 to R343: contexts are written by their world while no channel uses them; GO starts a chain, or is
refused with status 7; RESUME, ABORT and pause bits; IOMMU invalidations. The model's choices in it: `resp` is the record of the
answer (log 8); an event whose condition fails changes nothing (log 3); DMA_FADDR after a refused start (log 18); GO while BUSY
(log 25); a Newt has an IOMMU too (log 78). -/
def Obligations.dma_control : Prop :=
  (∀ (s : State) (m : Master) (d : DieId) (n : Fin 64) (w : Fin 2) (v : Word) (r : RegInfo),
    let p := 0x7800 + 8 * n.val
    MayWrite s m (.die d (p + 4 * w.val)) r → let a := accessOf s m
    let w0 : Word := if w = 0 then v &&& 0xE000007F#32 else s.dGet d p
    let world : World := if w0.getLsbD 30 then .H else .T
    let may := a.sup = true ∧ (a.world = world ∨ a.root = true) ∧ (∃ e : EngineId, e.val = w0.toNat % 2 ^ 7 ∧ s.world e = world) ∧
      (∀ c : ChanId, chanDie c = d → s.dma[c].st = .idle ∨ s.dma[c].context ≠ n.val) ∧
      (w0.getLsbD 29 = true → a.host = true ∨ a.world = .H)
    (may → ∃ t, exec (.dmaCtxWrite m d n w v) s = .next t ∧
      DieWritten s t d (p + 4 * w.val) (if w = 0 then w0 else v &&& 0x07FFFFFF#32)) ∧
    (¬may → ∃ t, exec (.dmaCtxWrite m d n w v) s = .next t ∧ DieWritten s t d 0x7504 (s.dGet d 0x7504 ||| 0x400#32))) ∧
  (∀ (s : State) (e : EngineId) (d : DieId) (n : Fin 64) (v : Word), (s.eng e).sup = true → v.toNat % 2 ^ 7 = e.val →
    s.world e = (if v.getLsbD 30 then .H else .T) → v.getLsbD 29 = false → (∀ c : ChanId, s.dma[c].st = .idle) →
    s.inReset = false → s.cutOff (.alias_ e) (.die d (0x7800 + 8 * n.val)) = false →
    ∃ t, exec (.dmaCtxWrite (.alias_ e) d n 0 v) s = .next t ∧ DieWritten s t d (0x7800 + 8 * n.val) (v &&& 0xE000007F#32)) ∧
  (∀ (s : State) (m : Master) (d : DieId) (v : Word) (r : RegInfo),
    (MayWrite s m (.die d 0x7504) r → v.getLsbD 10 = false →
      exec (.iommuInvalidate m d v) s = .next { s with resp := .ok 0, dies := s.dies.set d { s.die d with
        inval := if (s.die d).inval = none then
          some { ctx := v.toNat % 2 ^ 6, all := v.getLsbD 9, vpn := v.toNat / 2 ^ 12 } else (s.die d).inval } }) ∧
    ((s.die d).inval = none → exec (.iommuInvDone d) s = .next s) ∧
    (∀ i, (s.die d).inval = some i → let drops (x : Nat × TlbEnt) : Prop := x.1 = i.ctx ∧ (i.all = true ∨ x.2.covers i.vpn = true)
      let gone (y : TlbEnt) : Prop := y ∈ i.gone ∨ ∃ x, x ∈ (s.die d).iommu ∧ drops x ∧ x.2 = y
      let hit (va : Nat) : Prop := va / 4096 = i.vpn ∨ ∃ y, gone y ∧ y.covers (va / 4096) = true
      let busy := ∃ c : ChanId, chanDie c = d ∧ s.dma[c].context = i.ctx ∧
        ∃ y, s.dma[c].xfer = some y ∧ (i.all = true ∨ hit y.src.va ∨ hit y.dst.va)
      ∃ t, exec (.iommuInvDone d) s = .next t ∧ t = { s with dies := s.dies.set d (t.die d) } ∧
      { t.die d with iommu := [], inval := none } = { s.die d with iommu := [], inval := none } ∧
      (busy → ∃ j, (t.die d).inval = some j ∧ { j with gone := i.gone } = i ∧ ∀ y, y ∈ j.gone ↔ gone y) ∧
      (¬busy → (t.die d).inval = none) ∧
      ∀ x, x ∈ (t.die d).iommu ↔ x ∈ (s.die d).iommu ∧ ¬drops x)) ∧
  (∀ (s : State) (m : Master) (c : ChanId) (v : Word) (r : RegInfo), let d := chanDie c
    let k := chanLocal c
    let x := s.dma[c]
    let into (y : Dma) : State := { s with dma := s.dma.set c y, resp := .ok 0 }
    let begun : DmaSt := if (s.dGet d 0x7500).getLsbD k then .paused else .running
    MayWrite s m (.die d (0x7400 + 0x20 * k)) r → let a := accessOf s m
    (let ctx := v.toNat % 2 ^ 6
      let w0 := s.dGet d (0x7800 + 8 * ctx)
      let ok := x.st = .idle ∧ w0.getLsbD 31 = true ∧ a.sup = true ∧
        (a.world = (if w0.getLsbD 30 then .H else .T) ∨ a.root = true) ∧
        ∃ q, s.claimOf d (0x60 + k) = some q ∧ (a.world = q.world ∨ a.root = true);
      (ok → exec (.dmaGo m c v) s = .next (into { x with
        ctx := ctx, st := begun, progress := 0, cur := x.desc, now := none, tables := [] })) ∧
      (¬ok → exec (.dmaGo m c v) s = .next (into { x with ctx := if x.st = .running then x.ctx else ctx, status := 7 }))) ∧
    (x.ctx < 64 →
      exec (.dmaResume m c) s = .next (into { x with st := if x.st = .stopped then begun else x.st }) ∧
      exec (.dmaAbort m c) s = .next (into { x with
        ctx := x.ctx, st := .idle, status := 8, now := none, xfer := none, tables := []
        out := match x.out with
          | some q => if q.resp = none then some { q with drop := true } else none
          | none => none }))) ∧
  ∀ (s : State) (m : Master) (d : DieId) (v : Word) (r : RegInfo), MayWrite s m (.die d 0x7500) r → let a := accessOf s m
    ∃ t, exec (.dmaPause m d v) s = .next t ∧ t = { s with dma := t.dma, dies := s.dies.set d (t.die d), resp := .ok 0 } ∧
      { t.die d with regs := [] } = { s.die d with regs := [] } ∧ (∀ q, q ≠ 0x7500 → t.dGet d q = s.dGet d q) ∧
      ∀ c : ChanId, let x := s.dma[c]
        let k := chanLocal c
        let held := chanDie c = d ∧ ∃ q, s.claimOf d (0x60 + k) = some q ∧ a.sup = true ∧ (a.world = q.world ∨ a.root = true)
        (¬held → t.dma[c] = x) ∧ (chanDie c = d → ¬held → (t.dGet d 0x7500).getLsbD k = (s.dGet d 0x7500).getLsbD k) ∧
        (held → (t.dGet d 0x7500).getLsbD k = v.getLsbD k ∧
          t.dma[c] = { x with st := if v.getLsbD k = true ∧ x.st = .running ∧ x.xfer = none then .paused
                                    else if v.getLsbD k = false ∧ x.st = .paused then .running else x.st })

/-- R318, R334, R337 to R340, R342: a running channel fetches the descriptor at DMA_CUR and goes through it burst by burst, each
burst up to the next 512-byte boundary of either side: the bytes are read, and written by the channel's next request, which leaves
in the fc after the answer at the earliest. The last burst's answer gives the bank back and raises the line where the descriptor
says so, a refused hand-back in HBERR; the channel goes on to the next descriptor, or ends the chain with status 1. A write that
finds its first port granted in the present fc waits there. Stated for Pool and a fabric that nothing else asks. The model's
choices in it: an event whose condition fails changes nothing (log 3); DMA_FADDR after status 7 or 9 (log 18); the way takes no fc
of its own (log 84); status 7 comes before 9 (log 111). -/
def Obligations.dma_work : Prop :=
  ∀ (s : State) (c : ChanId), let x := s.dma[c]
    let d := chanDie c
    let phys := (s.dGet d (0x7800 + 8 * x.ctx)).getLsbD 29
    let settled : DmaSt := if (s.dGet d 0x7500).getLsbD (chanLocal c) then .paused else .running
    let here (a n acc y : Nat) : Prop := (∃ sel, s.dmaXlat c a n acc = (.ok (s.devId * 2 ^ 31 + y, sel), none)) ∧ y < 2 ^ 31 ∧ PoolAt s y n ∧
      s.masterCheck (s.dmaWho c) y n (acc == accStore) = none
    let way (y n : Nat) : List (DieId × Nat) := s.wayTo d (s.devId * 2 ^ 31 + y) n
    let stops (status y : Nat) (t : State) : Prop := Granted s t (way y 32) ∧
      t = { s with
        dies := t.dies
        dma := s.dma.set c { x with st := .stopped, status := status, faddr := x.cur.toNat, tables := [], next := s.fc + 1 }
        engines := s.engines.set (s.ctxEngine d x.ctx) ((s.eng (s.ctxEngine d x.ctx)).setLine 4) }
    ((x.st ≠ .running ∨ x.now ≠ none) → x.out = none → exec (.descriptorFetch c) s = .next s) ∧
    ((x.st ≠ .running ∨ x.now = none) → x.out = none → exec (.dmaBurst c) s = .next s) ∧
    (∀ a n acc, (s.dGet d (0x7800 + 8 * x.context)).getLsbD 29 = true → s.lark.opened = true → a / 2 ^ 31 = s.devId →
      PoolAt s (a % 2 ^ 31) n → here a n acc (a % 2 ^ 31)) ∧
    (∀ fetch : Bool, x.st = .running → x.out = none → x.now.isNone = fetch → s.fc < x.next →
      exec (if fetch then .descriptorFetch c else .dmaBurst c) s = .next s) ∧
    (x.st = .running → x.out = none → x.next ≤ s.fc →
    (∀ y, FabricIdle s none → x.xfer = none → x.now = none → here x.cur.toNat 32 accLoad y →
      let f (off n : Nat) : Nat := memNat s.mem (y + off) n
      let w0 : Word := BitVec.ofNat 32 (f 0 4)
      let reserved := w0.getLsbD 6 = true ∨ w0.toNat / 2 ^ 22 ≠ 0 ∨ f 7 1 ≠ 0 ∨ f 13 3 ≠ 0 ∨ f 21 3 ≠ 0 ∨ f 28 4 ≠ 0 ∨
        (w0.getLsbD 7 = false ∧ f 24 4 % 32 ≠ 0) ∨ (phys = false ∧ (f 12 1 ≠ 0 ∨ f 20 1 ≠ 0))
      (w0.toNat % 2 ^ 6 ≠ x.ctx → ∃ t, exec (.descriptorFetch c) s = .next t ∧ stops 7 y t) ∧
      (w0.toNat % 2 ^ 6 = x.ctx → reserved → ∃ t, exec (.descriptorFetch c) s = .next t ∧ stops 9 y t) ∧
      (w0.toNat % 2 ^ 6 = x.ctx → ¬reserved → ∃ t, exec (.descriptorFetch c) s = .next t ∧ Granted s t (way y 32) ∧
        t = { s with dies := t.dies, dma := s.dma.set c t.dma[c] } ∧ t.dma[c] = { x with
        st := settled, progress := 0, tables := [], next := s.fc + 1
        now := some { ctx := x.ctx, last := w0.getLsbD 7, qos := w0.toNat / 2 ^ 8 % 2 ^ 4, irq := w0.getLsbD 12, hb := w0.getLsbD 13
                      hbBank := w0.toNat / 2 ^ 14 % 2 ^ 4, hbCode := w0.toNat / 2 ^ 18 % 2 ^ 4, len := f 4 3, src := f 8 5
                      dst := f 16 5, next := f 24 4 } })) ∧
    (∀ (k : Desc) (y z : Nat), FabricIdle s none → x.xfer = none → x.now = some k → x.progress < k.len →
      let a := k.src + x.progress
      let b := k.dst + x.progress
      let n := min (k.len - x.progress) (min (512 - a % 512) (512 - b % 512))
      here a n accLoad y → here b n accStore z →
      ∃ t, exec (.dmaBurst c) s = .next t ∧ t = { s with dies := t.dies, dma := s.dma.set c t.dma[c] } ∧ Granted s t (way y n) ∧
        t.dma[c] = { x with tables := [], next := s.fc + 1, xfer := some {
          stage := .write, len := n, moved := 0, data := memNat s.mem y n
          src := { va := a, fa := s.devId * 2 ^ 31 + y, token := 0 }, dst := { va := b, fa := s.devId * 2 ^ 31 + z, token := 0 } } }) ∧
    ∀ (k : Desc) (q : DmaXfer) (z : Nat), x.now = some k → x.xfer = some q → q.stage = .write → q.moved = 0 → 0 < q.len →
      q.dst.fa = s.devId * 2 ^ 31 + z → z < 2 ^ 31 → PoolAt s z q.len →
      let n := q.len
      let g := s.eng (s.ctxEngine d k.ctx)
      (FabricIdle s none → k.hbBank < 16 → s.borrowed (s.ctxEngine d k.ctx) k.hbBank = false → ∃ t, exec (.dmaBurst c) s = .next t ∧
        t = { s with dies := t.dies, dma := s.dma.set c t.dma[c], mem := t.mem, engines := t.engines } ∧ Granted s t (way z n) ∧
        (∀ a, memByte t.mem a = (strobed z n (2 ^ n - 1) q.data a).getD (memByte s.mem a)) ∧
        let e := s.ctxEngine d k.ctx
        let h := t.eng e
        let final := k.len ≤ x.progress + n
        let back := final ∧ k.hb = true
        let fits := g.owner k.hbBank = 1 ∧ d = engDie e ∧ k.hbCode ≤ 5 ∧ k.hbCode ≠ 4 ∧
          (k.hbCode = 2 ∨ k.hbCode = 3 → k.hbBank ≤ 1 ∧ s.world (neighbour e (k.hbCode == 3)) = s.world e)
        (∀ f, f ≠ e → t.eng f = s.eng f) ∧ { h with io := [] } = { g with io := [] } ∧
        (∀ b, b < 16 → h.owner b = if back ∧ fits ∧ b = k.hbBank then k.hbCode else g.owner b) ∧
        h.ioGet 0x890 = (if back ∧ ¬fits then g.ioGet 0x890 ||| 0x100#32 else g.ioGet 0x890) ∧
        h.ioGet 0x8CC = (if final ∧ k.irq = true then g.ioGet 0x8CC ||| 0x10#32 else g.ioGet 0x8CC) ∧
        (∀ p, p ∉ [0x880, 0x884, 0x890, 0x8CC] → h.ioGet p = g.ioGet p) ∧
        let w := { x with next := s.fc + 1, xfer := none, hbErr := x.hbErr || (back && !decide fits) }
        (¬final → t.dma[c] = { w with progress := x.progress + n, st := settled }) ∧
        (final → k.last = true → t.dma[c] = { w with progress := x.progress + n, st := .idle, status := 1, now := none }) ∧
        (final → k.last = false → t.dma[c] = { w with progress := 0, st := settled, cur := BitVec.ofNat 32 k.next, now := none })) ∧
      (s.beats = [] → (∃ p, (way z n).head? = some p ∧ smGet (fun _ => 0) (s.die p.1).granted p.2 = s.fc + 1) →
        ∃ b, b.route = way z n ∧ b.use = .channel c ∧ exec (.dmaBurst c) s = .next { s with
          dma := s.dma.set c { x with out := some {
            write := true, fa := q.dst.fa, len := n, token := q.dst.token, data := q.data, table := false } }
          beats := [b] }))

/-! ## Configuration -/

/-- R245, R272, R283, R291, R294, R299, R410, R427: tables and lane registers: a slot entry in the inactive bank by the holder of
its target port, a map entry in the inactive bank, a route entry while its quad is disabled; else an error flag. A quad is enabled
at a rate within its limits, and disabled; a schedule and a cleared retirement bit. The model's choices in it: an event whose
condition fails changes nothing (log 3); `resp` is the record of the answer (log 8); when SEQLOCK is cleared and CADL = 7 comes in
force (log 74); a misaligned TARGET is refused (log 108); what enabling and disabling a quad empty (log 112). -/
def Obligations.configuration : Prop :=
  (∀ (s : State) (m : Master) (d : DieId) (b k : Fin 2) (port i : Nat) (v : Word) (r : RegInfo), let a := accessOf s m
    let inactive := b.val = (if (s.die d).active then 0 else 1)
    let werr (c : Instr) : Prop := ∃ t, exec c s = .next t ∧ DieWritten s t d 0x5600 (s.dGet d 0x5600 ||| 4#32)
    (let p := 0x8000 + 0x4000 * b.val + 0x100 * port + 2 * i
      let held := ∃ q, s.claimOf d port = some q ∧ a.sup = true ∧ (a.world = q.world ∨ a.root = true);
      port < 64 → i < 128 → MayWrite s m (.die d p) r →
      (inactive → held → ∃ t, exec (.slotEntryWrite m d b port i v) s = .next t ∧ DieWritten s t d p (v &&& 0x80FF#32)) ∧
      (¬(inactive ∧ held) → werr (.slotEntryWrite m d b port i v))) ∧
    (let p := 0x7D40 + 8 * b.val + 4 * k.val;
      MayWrite s m (.die d p) r →
      (inactive → ∃ t, exec (.engMapWrite m d b k v) s = .next t ∧ DieWritten s t d p v) ∧
      (¬inactive → werr (.engMapWrite m d b k v)))) ∧
  (∀ (s : State) (m : Master) (l : LaneId) (k : Fin 4) (w : Fin 3) (v : Word) (r : RegInfo), let d := laneDie l
    let p (j : Nat) := 0x6000 + 0x10 * (4 * (l.val % 72) + k.val) + 4 * j
    MayWrite s m (.die d (p w.val)) r → let cfg := s.laneCfg l
    let u : Word := v &&& (match w with | 0 => 0x73#32 | 1 => 0xFFFFFFFF#32 | 2 => 0xF#32)
    let t1 := (s.dGet d (p 1)).toNat
    let bad := (w = 0 ∧ u.getLsbD 6 = true ∧ cfg.getLsbD 28 = false) ∨ (w = 0 ∧ u.toNat % 4 = 3 ∧ ¬(t1 < 6 * 0x2000000 ∧ t1 % 256 = 0)) ∨
      (w = 2 ∧ 12 < u.toNat)
    let err (bit : Word) : Prop := ∃ t, exec (.routeEntryWrite m l k w v) s = .next t ∧ DieWritten s t d 0x3708 (s.dGet d 0x3708 ||| bit)
    (cfg.getLsbD 31 = true → (s.die d).mode ≠ 10 → err 1) ∧ (cfg.getLsbD 31 = false → bad → err 2) ∧
    (cfg.getLsbD 31 = false → ¬bad → ∃ t, exec (.routeEntryWrite m l k w v) s = .next t ∧ DieWritten s t d (p w.val) u)) ∧
  (∀ (s : State) (m : Master) (q : QuadId) (v : Word) (r : RegInfo), let d := quadDie q
    let p := 0x3000 + 4 * (q.val % 18)
    let old := s.dGet d p
    MayWrite s m (.die d p) r →
    let rate := v.toNat / 2 ^ 12 % 2 ^ 12 * (if v.getLsbD 28 then s.refHz else 10000000)
    let written (t : State) (x : Word) : Prop := t = { s with dies := s.dies.set d (t.die d), lanes := t.lanes, resp := .ok 0 } ∧
      t.dGet d p = x ∧ (∀ j, j ≠ p → t.dGet d j = s.dGet d j) ∧ { t.die d with regs := [] } = { s.die d with regs := [] }
    let inQuad (l : LaneId) : Prop := laneQuad l = q
    let off (x : Lane) (st : LaneSt) : Lane := { x with
      st := st, ver := 0, seqlock := false, helloSeen := false, helloRun := 0, held := [], resends := [], timers := [], badSeen := []
      wasUp := false, wasLocked := false, idleWait := false }
    (old.getLsbD 31 = false → old.getLsbD 27 = false → 1000000000 ≤ rate → rate ≤ 32000000000 →
      ∃ t, exec (.quadEnable m q v) s = .next t ∧ written t ((v ||| 0x80000000#32) &&& 0xF0FFFFFF#32) ∧
        ∀ l : LaneId, t.lanes[l] = if inQuad l ∧ s.masked l = false then off s.lanes[l] .cdr else s.lanes[l]) ∧
    (old.getLsbD 31 = false → ¬(1000000000 ≤ rate ∧ rate ≤ 32000000000) →
      ∃ t, exec (.quadEnable m q v) s = .next t ∧ written t ((v &&& 0x70FFFFFF#32) ||| 0x08000000#32) ∧ t.lanes = s.lanes) ∧
    (old.getLsbD 31 = true → old.getLsbD 27 = false → v &&& 0x30FFF000#32 = old &&& 0x30FFF000#32 →
      ∃ t, exec (.quadDisable m q v) s = .next t ∧ written t (v &&& 0x70FFFFFF#32) ∧
        ∀ l : LaneId, t.lanes[l] = if inQuad l ∧ s.lanes[l].st ≠ .retired then off s.lanes[l] .disabled else s.lanes[l])) ∧
  (∀ (s : State) (m : Master) (l : LaneId) (v : Word) (r : RegInfo), MayWrite s m (.die (laneDie l) (0x3300 + 4 * (l.val % 72))) r →
    let u := v &&& 0x703F0FFF#32
    exec (.laneSchedWrite m l v) s = .next { s with resp := .ok 0, lanes := s.lanes.set l { s.lanes[l] with
      sched := u, schedOn := if u.toNat / 2 ^ 28 = 7 then u else s.lanes[l].schedOn, schedAt := s.fc, seqlock := false } }) ∧
  ∀ (s : State) (m : Master) (d : DieId) (l : LaneId) (r : RegInfo), MayWrite s m (.die d (0x4200 + 4 * (l.val / 32))) r →
    (s.chanMask.getLsbD l = false → exec (.chanMaskClear m d l) s = .next { s with resp := .ok 0 }) ∧
    (s.chanMask.getLsbD l = true → ∃ t, exec (.chanMaskClear m d l) s = .next t ∧
      t = { s with chanMask := t.chanMask, mapStale := true, lanes := s.lanes.set l t.lanes[l], resp := .ok 0 } ∧
      (∀ j, j < 144 → t.chanMask.getLsbD j = (decide (j ≠ l.val) && s.chanMask.getLsbD j)) ∧
      t.lanes[l].st = (if (s.laneCfg l).getLsbD 31 then .cdr else .disabled) ∧ t.lanes[l].fails = [] ∧
      t.lanes[l].winBlocks = 0 ∧ t.lanes[l].winReqs = 0 ∧ t.lanes[l].held = [] ∧ t.lanes[l].cnt = s.lanes[l].cnt)

/-! ## Lanes and links -/

/-- R277, R279 to R282, R324, R327, Table 10-4: a lane trains from bit lock to HELLO, becomes ACTIVE under the version that
both sides allow, retrains, waits after a failed retrain and retires after too many. A die-to-die link acknowledges good
blocks in order, asks for others again, goes down and comes back. The model's choices in it: an event whose condition fails
changes nothing (log 3); the counting of re-sends (log 34); what the CRC of a block covers (log 92); measured quantities come
with their commands (log 69); a lane that trains again keeps its hold buffer (log 74). -/
def Obligations.lane_training : Prop :=
  (∀ (s : State) (l : LaneId), let x := s.lanes[l]
    let cfg := s.laneCfg l
    let d := laneDie l
    let into (y : Lane) : State := { s with lanes := s.lanes.set l y }
    let hello (y : Lane) : Lane := { y with st := .hello, helloSeen := false, helloRun := 0 }
    let again (y : Lane) : Lane := { y with st := .retrain, seqlock := false, helloSeen := false, helloRun := 0, idleWait := false }
    exec (.laneBitLock l) s = .next (into (if x.st = .cdr ∨ (x.st = .retrain ∧ x.idleWait = false) then { x with st := .block } else x)) ∧
    exec (.boundaryFound l) s = .next (into (
      if x.st = .block then (if cfg.getLsbD 28 then { x with st := .align } else hello x) else x)) ∧
    exec (.laneAligned l) s = .next (into (if x.st = .align then hello x else x)) ∧
    exec (.syncHeaderLoss l) s = .next (into (if x.st = .active then again x else x)) ∧
    exec (.retrainWaitExpiry l) s = .next (into (if x.st = .retrain then { x with idleWait := false } else x)) ∧
    (∀ b v, x.st = .hello → badBlock b = false → b.trailer.toNat / 2 ^ 44 % 16 = 1 → (s.die d).mode ≠ 10 →
      let w := b.words.getD 1 0
      let code := w.toNat % 8 + 8 * (w.toNat / 2 ^ 8 % 4)
      let fits (u : Nat) : Prop := 1 ≤ u ∧ u ≤ 3 ∧ w.getLsbD (u - 1) = true ∧ (cfg.getLsbD 29 = true → 2 ≤ u) ∧
        s.quadRate cfg ≤ if u = 3 then 32000000000 else 16000000000
      let run := if x.helloSeen = true ∧ x.fevers = code then x.helloRun + 1 else 1
      let heard (y : Lane) : Lane := { y with fevers := code, helloSeen := true, helloRun := run }
      let up (y : Lane) : Lane := { y with st := .active, ver := v, seqlock := false, wasUp := true }
      ((∀ u, ¬fits u) → exec (.hello l b) s = .next (into { heard x with negErr := true })) ∧
      (fits v → (∀ u, v < u → ¬fits u) →
        let done := if cfg.getLsbD 29 then w.getLsbD 16 = true ∧ w.toNat / 2 ^ 24 = v else 2 ≤ run
        (done → exec (.hello l b) s = .next (into (up (heard x)))) ∧ (¬done → exec (.hello l b) s = .next (into (heard x))))) ∧
    (∀ b, x.st = .active → badBlock b = false → b.trailer.toNat / 2 ^ 44 % 16 = 1 →
      let w := b.words.getD 1 0
      let code := w.toNat % 8 + 8 * (w.toNat / 2 ^ 8 % 4)
      exec (.hello l b) s = .next (into (if x.fevers % 8 = w.toNat % 8 then { x with fevers := code }
        else { again x with fevers := code }))) ∧
    (x.st = .hello → cfg.getLsbD 29 = true → cfg.getLsbD 30 = true → x.helloSeen = false →
      (∀ m ∈ x.tx, m.start < s.fc ∧ m.what.isHello = false) → ∃ b : FeBlock,
      b.words = 0x4C535548#32 :: 0x307#32 :: List.replicate 62 0 ∧ b.trailer.toNat / 2 ^ 32 = 0x1000 ∧ badBlock b = false ∧
      exec (.helloTransmit l) s = .next (into { x with tx := x.tx ++ [{ start := s.fc, what := .hello b }] })) ∧
    (¬(x.st = .hello ∧ cfg.getLsbD 29 = true ∧ cfg.getLsbD 30 = true) → exec (.helloTransmit l) s = .next s) ∧
    (x.wasUp = false ∨ s.noVersion l = true → exec (.failedRetrain l) s = .next s) ∧
    (x.wasUp = true → s.noVersion l = false → (s.die d).mode ≠ 10 → (x.st = .cdr ∨ x.st = .block ∨ x.st = .align ∨ x.st = .hello ∨ (x.st = .retrain ∧ x.idleWait = false)) →
      let ret := s.dGet d 0x3700
      let fails := s.fc :: x.fails.filter fun t => decide (s.fc < t + ret.toNat / 2 ^ 16 % 2 ^ 12 * (s.refHz * s.kF / 100))
      (fails.length < ret.toNat / 2 ^ 28 → exec (.failedRetrain l) s = .next (into { again x with idleWait := true, fails := fails })) ∧
      (ret.toNat / 2 ^ 28 ≤ fails.length → ∃ t, exec (.failedRetrain l) s = .next t ∧
        t = { into { again x with
            st := .retired, idleWait := true, fails := [], winBlocks := 0, winReqs := 0
            tx := x.tx.filter fun m => decide (m.start < s.fc) } with
          mapStale := true, chanMask := t.chanMask, engines := t.engines } ∧
        (∀ j, j < 144 → t.chanMask.getLsbD j = (decide (j = l.val) || s.chanMask.getLsbD j)) ∧
        ∀ e, t.eng e = if s.world e = .T then (s.eng e).setLine 1 else s.eng e))) ∧
  ∀ (s : State) (d : DieId) (p : Fin 6), (d.val < 6 → p.val < 4) → let x := (s.die d).d2d[p]
    let into (y : D2d) : State := { s with dies := s.dies.set d { s.die d with d2d := (s.die d).d2d.set p y } }
    let counted (c : Instr) (y : D2d) : Prop := ∃ t, exec c s = .next t ∧ t = { s with dies := s.dies.set d (t.die d) } ∧
      { t.die d with regs := [] } = { s.die d with regs := [], d2d := (s.die d).d2d.set p y } ∧
      (∀ q, q ≠ 0x7510 → t.dGet d q = s.dGet d q) ∧
      (t.dGet d 0x7510).toNat % 2 ^ 16 = (s.dGet d 0x7510).toNat % 2 ^ 16 ∧
      (t.dGet d 0x7510).toNat / 2 ^ 16 = min 0xFFFF ((s.dGet d 0x7510).toNat / 2 ^ 16 + 1)
    let falls (c : Instr) : Prop := ∃ t, exec c s = .next t ∧
      t = { into { x with down := true, waiting := false, resends := 0 } with engines := t.engines } ∧
      ∀ e, t.eng e = if engDie e = d then (s.eng e).setLine 2 else s.eng e
    (∀ (seq : Nat) (b : D2dBlk), x.down = false → let good := b.data.length = 256 ∧ crc32c b.data = b.crc
      (seq < x.expect → exec (.d2dBlock d p seq b) s = .next s) ∧
      (seq = x.expect → good → exec (.d2dBlock d p seq b) s =
        .next (into { x with expect := x.expect + 1, waiting := false, resends := 0, acked := x.acked + 1 })) ∧
      (seq = x.expect → ¬good → x.resends < 8 → counted (.d2dBlock d p seq b) { x with waiting := true, resends := x.resends + 1 }) ∧
      (seq = x.expect → ¬good → 8 ≤ x.resends → falls (.d2dBlock d p seq b)) ∧
      (x.expect < seq → x.waiting = true → counted (.d2dBlock d p seq b) x) ∧
      (x.expect < seq → x.waiting = false → exec (.d2dBlock d p seq b) s = .next s)) ∧
    (x.down = true → ∀ seq b, exec (.d2dBlock d p seq b) s = .next s) ∧
    (x.down = false → falls (.d2dLockLoss d p) ∧ exec (.d2dRetrainDone d p) s = .next s) ∧
    (x.down = true → exec (.d2dLockLoss d p) s = .next s ∧
      exec (.d2dRetrainDone d p) s = .next (into { x with down := false, waiting := false, resends := 0 })) ∧
    exec (.d2dRetry d p) s = .next s

/-- R284 to R293, R297 to R299: a good DATA block is held until its release point; a late one, one held already and one out of
range are counted; a bad one is counted, and asked for again on a replay lane; RS_MAX requests or bad blocks in a window retire
the lane. A release point releases one number, as its copy or as a marker, into the routing unit for the destinations of its route
entries, zero groups dropped and an end marker added where they say so; the unit sends it on group by group. With CADL = 7 a
number is released as soon as its copy is held, or as a marker where a forward lane captures a bad block. Requests and releases
leave as code words, a request 8 fc later, after a HELLO block then being sent, and before a waiting ACK (R277). The lane is not
measured. The model's choices in it: an event whose condition fails changes nothing (log 3); which routed group leaves (log 13);
what happens while SEQLOCK = 0, and FB under versions 1 and 2 (log 74); the way takes no fc of its own (log 84). -/
def Obligations.lane_blocks : Prop :=
  (∀ (s : State) (l : LaneId), let x := s.lanes[l]
    let cfg := s.laneCfg l
    let d := laneDie l
    let ret := s.dGet d 0x3700
    let into (y : Lane) : State := { s with lanes := s.lanes.set l y }
    let full := 2 ^ (16 + ret.toNat / 2 ^ 4 % 16)
    let window (y : Lane) : Lane := if full ≤ y.winBlocks then { y with winBlocks := 1, winReqs := 0 } else { y with winBlocks := y.winBlocks + 1 }
    let count (y : Lane) (place : Nat) : Lane := { y with
      cnt := if y.cnt.toNat / 2 ^ place % 2 ^ 8 = 255 then y.cnt else y.cnt + BitVec.ofNat 32 (2 ^ place) }
    let word (code : Nat) (q : BitVec 12) : LaneTx := .code 0x4B (BitVec.ofNat 56 (code * 4096 + q.toNat))
    let sent (tx : List FeSend) : Prop := ∀ m ∈ tx, m.start < s.fc ∧ m.what.isHello = false
    let on := cfg.getLsbD 29 = true ∧ cfg.getLsbD 30 = true
    let limit := ret.toNat / 2 ^ 8 % 2 ^ 8
    let struck (z : Lane) (t : State) : Prop :=
      (limit = 0 ∨ z.winReqs < limit → t = into z) ∧
      (limit ≠ 0 → limit ≤ z.winReqs →
        t = { into { z with st := .retired, fails := [], winBlocks := 0, winReqs := 0, tx := z.tx.filter fun m => decide (m.start < s.fc) } with
          mapStale := true, chanMask := t.chanMask, engines := t.engines } ∧
        (∀ j, j < 144 → t.chanMask.getLsbD j = (decide (j = l.val) || s.chanMask.getLsbD j)) ∧
        ∀ e, t.eng e = if s.world e = .T then (s.eng e).setLine 1 else s.eng e)
    let w (k j : Nat) : Word := s.dGet d (0x6000 + 0x10 * (4 * (l.val % 72) + k) + 4 * j)
    let groups (ws : List Word) (missing : Bool) : List Group :=
      let group (i : Nat) : W256 := BitVec.ofNat 256 ((List.range 8).map fun j => (ws.getD (8 * i + j) 0).toNat * 2 ^ (32 * j)).sum
      let toward (kind target queue : Nat) (v : W256) : Group :=
        { lane := l, kind := kind, target := target, queue := queue, sched := (w 0 0).getLsbD 6, data := v }
      let kept (g : List W256) : List W256 := if (w 0 0).getLsbD 4 then g.filter (· ≠ 0) else g
      let all := (List.range 8).map group
      match (w 0 0).toNat % 4 with
      | 1 => (kept all).map (toward 1 ((w 0 1).toNat % 2 ^ 7) ((w 0 1).toNat / 2 ^ 8 % 2 ^ 4))
      | 2 => (kept (if missing then List.replicate 8 0 else all) ++
          if (w 0 0).getLsbD 5 then [BitVec.ofNat 256 (0x80000000 + x.ne.toNat)] else []).map (toward 2 ((w 0 1).toNat % 2 ^ 3) 0)
      | 3 => (List.range 8).map fun i =>
          toward 3 ((w 0 1).toNat + x.ne.toNat % 2 ^ ((w 0 2).toNat % 2 ^ 4) * 256 + 32 * i) 0 (group i)
      | _ => []
    let routed := (s.die d).mode ≠ 11 ∧ ∀ k, k < 4 → k ≠ 0 → (w k 0).toNat % 4 = 0
    let left (y : Lane) (ws : List Word) (missing : Bool) : State := { s with
      lanes := s.lanes.set l { if missing then count y 16 else y with
        ne := x.ne + 1, held := x.held.filter fun h => h.seq ≠ x.ne
        resends := x.resends.filter fun p => p.1 ≠ x.ne, timers := x.timers.filter fun p => p.1 ≠ x.ne
        badSeen := x.badSeen.filter (· ≠ x.ne)
        tx := if on then x.tx ++ [{ start := s.fc, what := word 0 x.ne }] else x.tx }
      groups := s.groups.set (laneNewt l) (s.groups[laneNewt l] ++ groups ws missing) }
    let marker (reason : Nat) : List Word :=
      BitVec.ofNat 32 (0xFF000000 + reason * 2 ^ 22 + l.val * 2 ^ 12 + x.ne.toNat) :: List.replicate 63 0
    x.st = .active → cfg.getLsbD 28 = true →
    (x.schedOn.toNat / 2 ^ 28 % 8 = 7 → (s.dGet d 0x3704).getLsbD 31 = false → x.seqlock = true → x.held = [] → routed → sent x.tx →
      (∀ b, badBlock b = false → b.trailer.toNat / 2 ^ 44 % 16 = 0 → b.trailer.toNat / 2 ^ 32 % 2 ^ 12 = x.ne.toNat →
        exec (.dataBlock l b) s = .next (if b.trailer.getLsbD 49 = true ∧ x.ver = 3 then left (window x) (marker 3) true
          else left (window x) b.words false)) ∧
      ∀ b, badBlock b = true → cfg.getLsbD 29 = false → (limit = 0 ∨ (window x).winReqs + 1 < limit) →
        exec (.dataBlock l b) s = .next (left { count (window x) 24 with winReqs := (window x).winReqs + 1 } (marker 0) true)) ∧
    (x.schedOn.toNat / 2 ^ 28 % 8 ≠ 7 →
    (∀ b, (s.dGet d 0x3704).getLsbD 31 = false → badBlock b = false → b.trailer.toNat / 2 ^ 44 % 16 = 0 →
      let q : BitVec 12 := BitVec.ofNat 12 (b.trailer.toNat / 2 ^ 32)
      let h : Held := { seq := q, words := b.words, febad := b.trailer.getLsbD 49 && decide (x.ver = 3) }
      let have_ := ∃ y ∈ x.held, y.seq = q
      let far := (q - x.ne).toInt
      (x.seqlock = true → (far < 0 ∨ have_) → exec (.dataBlock l b) s = .next (into (count (window x) 8))) ∧
      (x.seqlock = true → ¬have_ → 7 < far →
        exec (.dataBlock l b) s = .next (into { count (window x) 0 with held := [], seqlock := false })) ∧
      (x.seqlock = true → ¬have_ → 0 ≤ far → far ≤ 7 → (cfg.getLsbD 29 = true → q = x.ne) →
        exec (.dataBlock l b) s = .next (into { window x with held := x.held ++ [h] })) ∧
      (x.seqlock = false → ¬have_ → x.held.length < 8 → exec (.dataBlock l b) s = .next (into { window x with held := x.held ++ [h] }))) ∧
    (∀ b, (s.dGet d 0x3704).getLsbD 31 = false → badBlock b = true → x.seqlock = false →
      (∀ h ∈ x.held, h.seq ≠ x.ne) →
      let y := { count (window x) 24 with winReqs := (window x).winReqs + 1 }
      (cfg.getLsbD 29 = false → ∃ t, exec (.dataBlock l b) s = .next t ∧ struck y t) ∧
      (cfg.getLsbD 29 = true → (∀ p ∈ x.resends, p.1 ≠ x.ne) →
        let asked (tx : List FeSend) : Lane := { y with
          resends := x.resends ++ [(x.ne, 1)], tx := tx
          timers := x.timers.filter (fun p => p.1 ≠ x.ne) ++ [(x.ne, s.fc + max 1 (cfg.toNat % 2 ^ 8) * 16)] }
        let nak (t : Nat) : FeSend := { start := t, what := word 1 x.ne }
        (cfg.getLsbD 30 = false → ∃ t, exec (.dataBlock l b) s = .next t ∧ struck (asked x.tx) t) ∧
        (cfg.getLsbD 30 = true → sent x.tx → ∃ t, exec (.dataBlock l b) s = .next t ∧ struck (asked (x.tx ++ [nak (s.fc + 8)])) t) ∧
        (∀ t h, cfg.getLsbD 30 = true → x.tx = [{ start := t, what := .hello h }] → t ≤ s.fc + 8 → s.fc + 8 < t + s.blockFc l →
          ∃ u, exec (.dataBlock l b) s = .next u ∧ struck (asked (x.tx ++ [nak (t + s.blockFc l)])) u) ∧
        (∀ q, cfg.getLsbD 30 = true → x.tx = [{ start := s.fc + 8, what := word 0 q }] →
          ∃ t, exec (.dataBlock l b) s = .next t ∧ struck (asked (nak (s.fc + 8) :: x.tx)) t))) ∧
    (∀ q n, (q, n) ∈ x.timers → n ≤ s.fc → (∀ h ∈ x.held, h.seq ≠ q) → (x.wasLocked = true → 0 ≤ (q - x.ne).toInt) → sent x.tx →
      ∀ k, k < 4 → x.resends = [(q, k)] → ∃ t, exec (.nakTimerExpiry l q) s = .next t ∧ struck { count x 24 with
        winReqs := x.winReqs + 1, resends := [(q, k + 1)]
        tx := if on then x.tx ++ [{ start := s.fc + 8, what := word 1 q }] else x.tx
        timers := x.timers.filter (fun p => p.1 ≠ q) ++ [(q, s.fc + max 1 (cfg.toNat % 2 ^ 8) * 16)] } t) ∧
    ((∀ p ∈ x.timers, s.fc < p.2) → ∀ q, exec (.nakTimerExpiry l q) s = .next s) ∧
    (x.sched = x.schedOn → x.relAt ≠ some s.fc → x.seqlock = true → sent x.tx → s.relDue x.schedOn = true → routed →
      let here := { x with relAt := some s.fc }
      (∀ pre h post, x.held = pre ++ h :: post → h.seq = x.ne → (∀ y ∈ pre, y.seq ≠ x.ne) →
        exec (.releasePoint l) s = .next (if h.febad then left here (marker 3) true else left here h.words false)) ∧
      ((∀ h ∈ x.held, h.seq ≠ x.ne) →
        exec (.releasePoint l) s = .next (left here (marker (if x.ne ∈ x.badSeen then 0 else 2)) true))) ∧
    (x.sched = x.schedOn → s.relDue x.schedOn = false → exec (.releasePoint l) s = .next s))) ∧
  (∀ (s : State) (n : Fin 2) (g : Group) (rest : List Group) (d : DieId) (port : Nat), s.groups[n] = g :: rest → g.sched = false →
    (∀ k, k ≠ n → s.groups[k] = []) → FabricIdle { s with groups := .replicate 2 [] } none → s.groupPort g = some (d, port) →
    let words : List Word := (List.range 8).map fun j => (g.data >>> (32 * j)).setWidth 32
    let sent (t : State) : State := { s with groups := s.groups.set n rest, dies := t.dies }
    (∀ e, g.kind = 1 → g.queue < 16 → s.physOf g.target = some e → s.engReady e = true → (s.eng e).iqHeld = [] →
      ((s.eng e).iq.getD g.queue []).length + 8 ≤ 64 → ∃ t, exec (.routedGroupSend n) s = .next t ∧
      Granted s t (portsTo (newtDie n) d port) ∧ t = { sent t with
        engines := s.engines.set e { s.eng e with iq := (s.eng e).iq.setIfInBounds g.queue ((s.eng e).iq.getD g.queue [] ++ words) } }) ∧
    (∀ k : GeckoId, g.kind = 2 → g.target = k.val → s.foxReady k = true → (s.die (geckoDie k)).mode ≠ 0 → (s.die (geckoDie k)).mode ≠ 11 →
      (s.dGet (geckoDie k) 0x6000).getLsbD 31 = true → s.fox[k].late = [] → s.fox[k].waiting = [] → s.fox[k].queue.length ≤ 24 →
      ∃ t, exec (.routedGroupSend n) s = .next t ∧ Granted s t (portsTo (newtDie n) d port) ∧ t = { sent t with
        fox := s.fox.set k { s.fox[k] with queue := s.fox[k].queue ++ (List.range 8).map fun j => (words.getD j 0, true, s.fc + 2 + j / 2) } }) ∧
    (g.kind = 3 → PoolAt s g.target 32 → ∃ t, exec (.routedGroupSend n) s = .next t ∧
      Granted s t (portsTo (newtDie n) d port) ∧ t = { sent t with mem := t.mem } ∧
      ∀ q, memByte t.mem q = (strobed g.target 32 (fullStrobe 32) g.data.toNat q).getD (memByte s.mem q))) ∧
  (∀ (s : State) (n : Fin 2), s.groups[n] = [] → exec (.routedGroupSend n) s = .next s) ∧
  ∀ (s : State), (s.mapStale = false → exec .laneMapWrite s = .next s) ∧
    (s.mapStale = true → ∃ t, exec .laneMapWrite s = .next t ∧ t = { s with cal := t.cal, mapStale := false } ∧
      ∀ q, memByte t.cal q = (strobed 0x200 18 (fullStrobe 18) s.chanMask.toNat q).getD (memByte s.cal q))

/-! ## Chain -/

/-- R241, R301 to R303, R309, R313: a chain port is enabled at a rate within its limits; it goes up with a capture unit for the
time tree, sends again what a port down has lost, goes down and retries; a device id is set once; a STOP, or HALT_N low,
quarantines the Trigger world and travels on once, up to 255 hops. The model's choices in it: an event whose condition fails
changes nothing (log 3); `resp` is the record of the answer (log 8); a repeated MULT (log 20); a malformed SETID (log 22); how
many packets a port down has lost is a free value (log 85); a port that changes is no time-tree child (log 26); a STOP that arrives
with HOPS = 254 (log 109). -/
def Obligations.chain_ports : Prop :=
  (∀ (s : State) (m : Master) (p : PortId) (v : Word) (r : RegInfo), let d := newtDie (if p.val < 2 then 0 else 1)
    let reg := 0x5810 + 8 * (p.val % 2)
    let old := s.dGet d reg
    let mult := v.toNat / 2 ^ 16 % 2 ^ 10
    let rate := 2 * mult * s.refHz
    let now (mult : Nat) (bits : Nat) : Word := BitVec.ofNat 32 (bits * 2 ^ 30 + mult * 2 ^ 16 + v.toNat % 2 ^ 12)
    let writes (w : Word) : Prop := ∃ t, exec (.chainPortEnable m p v) s = .next t ∧ DieWritten s t d reg w
    MayWrite s m (.die d reg) r → old.getLsbD 30 = false →
      (old.getLsbD 31 = false → 10000000000 ≤ rate → rate ≤ 56000000000 → writes (now mult 2)) ∧
      (old.getLsbD 31 = false → ¬(10000000000 ≤ rate ∧ rate ≤ 56000000000) → writes (now mult 1)) ∧
      (old.getLsbD 31 = true → let kept := old.toNat / 2 ^ 16 % 2 ^ 10
        writes (now kept (if mult = kept then 2 else 3)))) ∧
  (∀ (s : State) (p : PortId), let n : Fin 2 := if p.val < 2 then 0 else 1
    let d := newtDie n
    let en := (s.dGet d (0x5810 + 8 * (p.val % 2))).getLsbD 31
    let x := s.ports[p]
    let changed (y : ChainPort) : State := { s with
      ports := s.ports.set p y, engines := .ofFn fun e => if s.world e = .T then (s.eng e).setLine 1 else s.eng e }
    (en = true → x.up = false → x.ttUnit ≠ none → x.replay = [] →
      exec (.chainPortUp p) s = .next (changed { x with up := true, down := false, child := false })) ∧
    (en = true → x.up = false → x.ttUnit ≠ none → x.replay ≠ [] → ∃ lost, lost ≤ x.replay.length ∧
      exec (.chainPortUp p) s = .next { changed { x with
        up := true, down := false, child := false, tx := x.tx ++ x.replay.drop (x.replay.length - lost) } with
        freeCtr := s.freeCtr + 1 }) ∧
    (∀ k, en = true → x.up = false → x.ttUnit = none → x.replay = [] → k < 16 → s.claimOf d (0x50 + k) = none →
      (∀ j, j < k → s.claimOf d (0x50 + j) ≠ none) → ∃ t, exec (.chainPortUp p) s = .next t ∧
        t = { changed { x with up := true, down := false, child := false, ttUnit := some k } with dies := s.dies.set d (t.die d) } ∧
        { t.die d with claims := [] } = { s.die d with claims := [] } ∧
        ∀ j, t.claimOf d j = if j = 0x50 + k then some { holder := .timeTree, world := .T } else s.claimOf d j) ∧
    ((en = false ∨ x.up = true) → exec (.chainPortUp p) s = .next s) ∧
    (en = true → x.up = true → exec (.chainPortDown p) s = .next (changed { x with up := false, down := true, child := false })) ∧
    (en = true → x.up = false → exec (.chainPortDown p) s = .next { s with
      ports := s.ports.set p { x with down := true, child := false } }) ∧
    (en = false → exec (.chainPortDown p) s = .next s) ∧
    exec (.chainPortRetry p) s = .next (if en = true ∧ x.down = true then { s with ports := s.ports.set p { x with down := false } }
      else s)) ∧
  (∀ (s : State) (m : Master) (v : Word) (r : RegInfo), let id := s.n0 0x5800
    (MayWrite s m (.die newt0 0x5800) r →
      (id.getLsbD 31 = true → exec (.setDeviceId m v) s = .next { s with resp := .ok 0 }) ∧
      (id.getLsbD 31 = false → ∃ t, exec (.setDeviceId m v) s = .next t ∧
        DieWritten s t newt0 0x5800 (0x80000000#32 ||| (v &&& 0x1FF#32)))) ∧
    (∀ p : PortId, MayWrite s m (.die newt0 0x5804) r → v.toNat / 2 ^ 28 % 4 = p.val →
      let q := s.vc0 8 [BitVec.ofNat 32 (v.toNat / 2 ^ 16 % 2 ^ 9)]
      ∃ t, exec (.sendSetid m v) s = .next { t with ports := if s.ports[p].up then s.ports.set p (s.ports[p].sent q) else s.ports } ∧
        DieWritten s t newt0 0x5804 (v &&& 0x31FF0001#32)) ∧
    (∀ (p : PortId) (k : Packet) (w : Word), Arrives s p k 8 → k.data = [w] →
      (id.getLsbD 31 = false → ∃ t, exec (.setid p k) s = .next { t with resp := s.resp } ∧
        DieWritten s t newt0 0x5800 (0x80000000#32 ||| (w &&& 0x1FF#32))) ∧
      (id.getLsbD 31 = true → ∃ t, exec (.setid p k) s = .next { t with resp := s.resp } ∧
        DieWritten s t newt0 0x5808 (s.n0 0x5808 ||| 0x2000#32))) ∧
    (∀ (p : PortId) (k : Packet), Arrives s p k 8 → k.data.length ≠ 1 → ∃ t, exec (.setid p k) s = .next { t with resp := s.resp } ∧
      DieWritten s t newt0 0x5808 (s.n0 0x5808 ||| 0x2000#32))) ∧
  ∀ (s : State),
    let stopped (t : State) : Prop := t.mem = s.mem ∧ t.n0 0x5808 = s.n0 0x5808 ||| 0x1000#32 ∧ t.helio = s.helio ∧
      (∀ e, (s.world e = .T → (t.eng e).mode = 11 ∧ (t.eng e).gr = (s.eng e).gr ∧ (t.eng e).pc = (s.eng e).pc ∧
          ((s.eng e).mode ≠ 11 → (t.eng e).ioGet 0xB30 = 4)) ∧ (s.world e = .H → t.eng e = s.eng e)) ∧
      ∀ d, (t.die d).mode = 11 ∧ ((s.die d).mode ≠ 11 → (t.die d).qreason = 4)
    (∀ (p : PortId) (k : Packet) (a b : Word), Arrives s p k 7 → k.data = [a, b] →
      let id := (a.toNat % 2 ^ 9, b.toNat % 2 ^ 16)
      (254 ≤ k.hops.toNat → ∃ t, exec (.stop p k) s = .next { t with resp := s.resp } ∧
        DieWritten s t newt0 0x5808 (s.n0 0x5808 ||| 0x2000#32)) ∧
      (k.hops.toNat < 254 → ∃ t, exec (.stop p k) s = .next t ∧ stopped t ∧ t.pins = s.pins ∧
        t.stops = (if id ∈ s.stops then s.stops else (id :: s.stops).take 8) ∧
        ∀ q : PortId, t.ports[q] = if id ∉ s.stops ∧ s.ports[q].up = true ∧ q ≠ p then
          s.ports[q].sent (sealPkt { k with hops := k.hops + 1 }) else s.ports[q])) ∧
    (s.inReset = false → ∃ t, exec (.halt true) s = .next t ∧ stopped t ∧ t.pins = { s.pins with halt := false } ∧
      ∀ q : PortId, t.ports[q] = if (s.n0 0x5804).getLsbD 0 = true ∧ s.ports[q].up = true then
        s.ports[q].sent (s.vc0 7 [BitVec.ofNat 32 s.devId, BitVec.ofNat 32 s.stopNo]) else s.ports[q]) ∧
    (s.inReset = true → exec (.halt true) s = .next { s with pins := { s.pins with halt := false } }) ∧
    exec (.halt false) s = .next { s with pins := { s.pins with halt := true } }

/-- R303 to R305, R308 to R310, R327, R391: a packet for another package goes on, or at 255 hops is discarded, and a request that
no route takes is answered with status 3; a request for this package is made under its token and answered, or refused with status
1 or 2, a posted one in DROPS; a reserved form is discarded with BADPKT, a VC1 packet that fails its CRC with CRCERR; a response
reaches its requester; one that does not come in time fails; a VC1 write is held until it is due, and is made then, or at once
where it is late, with VC1LATE. Stated for Pool and a fabric that nothing else asks. The model's choices in it: an event whose
condition fails changes nothing (log 3); `resp` is the record of the answer (log 8); the frame of a VC1 slot (log 16); padding of
packets (log 35); a held chain write is acknowledged (log 36); the way takes no fc (log 84). -/
def Obligations.chain_packets : Prop :=
  ∀ (s : State) (p : PortId) (k : Packet), let x := s.ports[p]
    let send (h : PortId) (q : Packet) : State := { s with ports := s.ports.set h (s.ports[h].sent q) }
    let cmd : Instr := match k.kind.toNat with | 0 => .rd p k | 1 => .wr p k | 2 => .rdrsp p k | _ => .wrrsp p k
    let way := s.wayTo (chnDie p) k.addr.toNat (4 * k.len.toNat)
    let flagged (c : Instr) (bit : Nat) : Prop := ∃ t, exec c s = .next { t with resp := s.resp } ∧
      DieWritten s t newt0 0x5808 (s.n0 0x5808 ||| BitVec.twoPow 32 bit)
    let discarded (c : Instr) : Prop := flagged c 13
    let dropped (c : Instr) : Prop := ∃ t v, exec c s = .next { t with resp := s.resp } ∧ DieWritten s t newt0 0x5808 v ∧
      v.toNat % 2 ^ 16 = (s.n0 0x5808).toNat % 2 ^ 16 ∧ v.toNat / 2 ^ 16 = min 0xFFFF ((s.n0 0x5808).toNat / 2 ^ 16 + 1)
    let admits (w : World) (wr : Bool) : Prop := s.masterCheck { acc := accessOf s (.chain w), party := .other } (k.addr.toNat % 2 ^ 31) (4 * k.len.toNat) wr = none
    let linksUp : Prop := ∀ (d : DieId) (j : Fin 6), (s.die d).d2d[j].down = false
    let refusal (r : Resp) : BitVec 4 := match r with | .part | .world | .level | .cap _ => 1 | _ => 2
    let n := 4 * k.len.toNat
    let y := k.addr.toNat % 2 ^ 31
    let reply (kind : BitVec 4) (status : BitVec 4) (data : List Word) : Packet := sealPkt { k with
      dst := k.src, src := BitVec.ofNat 9 s.devId, vc := 2, kind := kind, len := BitVec.ofNat 8 data.length, status := status
      tok := none, bcast := false, posted := false, hops := 0, data := data, slot := 0 }
    (s.lark.opened = true → PoolAt s y n → ∀ w wr, s.masterCheck { acc := accessOf s (.chain w), party := .other } y n wr = none) ∧
    (x.up = true → pktGood k = true → k.dst.toNat ≠ s.devId → k.kind.toNat < 4 →
      (∀ h, k.hops.toNat < 254 → s.chainHop k.dst.toNat = some h → FabricIdle s none → ∃ u, exec cmd s = .next u ∧
        Granted s u (portsTo (chnDie p) (newtDie (portNewt h)) (0x30 + h.val % 2)) ∧
        u = { send h (sealPkt { k with hops := k.hops + 1 }) with dies := u.dies }) ∧
      (k.hops.toNat < 254 → s.chainHop k.dst.toNat = none →
        ((1 < k.kind.toNat ∨ k.posted = true ∨ s.chainHop k.src.toNat = none) → exec cmd s = .next s) ∧
        ∀ h, k.kind.toNat < 2 → k.posted = false → s.chainHop k.src.toNat = some h →
          exec cmd s = .next (send h (reply (if k.kind = 0 then 2 else 3) 3 []))) ∧
      (∀ h q, k.hops.toNat < 254 → s.chainHop k.dst.toNat = some h → s.routeDown (chnDie p) (newtDie (portNewt h)) = true →
        k.kind.toNat < 2 → k.posted = false → s.chainHop k.src.toNat = some q →
        exec cmd s = .next (send q (reply (if k.kind = 0 then 2 else 3) 2 []))) ∧
      (254 ≤ k.hops.toNat → discarded cmd)) ∧
    (x.up = true → pktGood k = true → k.dst.toNat = s.devId →
      (9 ≤ k.kind.toNat → discarded (.rd p k) ∧ discarded (.wr p k) ∧ discarded (.rdrsp p k) ∧ discarded (.wrrsp p k)) ∧
      (k.kind.toNat < 4 → (k.vc = 0 ∨ k.vc = 3 ∨ 64 < k.len.toNat ∨ (k.kind.toNat < 2 ∧ k.addr.toNat / 2 ^ 31 ≠ k.dst.toNat)) →
        discarded cmd)) ∧
    (k.kind.toNat < 9 → (k.kind ≠ 0 → exec (.rd p k) s = .next s) ∧ (k.kind ≠ 1 → exec (.wr p k) s = .next s) ∧
      (k.kind ≠ 2 → exec (.rdrsp p k) s = .next s) ∧ (k.kind ≠ 3 → exec (.wrrsp p k) s = .next s)) ∧
    (x.up = true → pktGood k = true → k.vc = 2 → k.len.toNat ≤ 64 → (k.kind = 0 ∨ k.kind = 1) → k.addr.toNat / 2 ^ 31 = k.dst.toNat →
      k.dst.toNat = s.devId → k.posted = false →
      (∀ h, s.chainHop k.src.toNat = some h → s.chainToken k = none →
        exec cmd s = .next (send h (reply (if k.kind = 0 then 2 else 3) 1 []))) ∧
      (∀ h t r, s.chainHop k.src.toNat = some h → s.chainToken k = some t →
        s.masterCheck { acc := accessOf s (.chain (s.tokWorld t)), party := .other } y n (k.kind == 1) = some r →
        exec cmd s = .next (send h (reply (if k.kind = 0 then 2 else 3) (refusal r) []))) ∧
      (∀ h t, s.chainHop k.src.toNat = some h → s.chainToken k = some t → 0 < n → FabricIdle s none →
        PoolAt s y n → admits (s.tokWorld t) (k.kind == 1) →
        (k.kind = 0 → ∃ u, exec cmd s = .next u ∧ Granted s u way ∧
          u = { send h (reply 2 0 ((List.range k.len.toNat).map fun i => BitVec.ofNat 32 (memNat s.mem (y + 4 * i) 4))) with
            dies := u.dies }) ∧
        (k.kind = 1 → k.data.length = k.len.toNat → ∃ u, exec cmd s = .next u ∧ Granted s u way ∧
          u = { send h (reply 3 0 []) with dies := u.dies, mem := u.mem } ∧
          ∀ a, memByte u.mem a = if y ≤ a ∧ a < y + n then byteOf (k.data.getD ((a - y) / 4) 0).toNat ((a - y) % 4)
            else memByte s.mem a))) ∧
    ((x.up = false ∨ (pktGood k = false ∧ k.vc ≠ 1)) → (k.kind = 0 → exec (.rd p k) s = .next s) ∧
      (k.kind = 1 → exec (.wr p k) s = .next s) ∧ (k.kind = 2 → exec (.rdrsp p k) s = .next s) ∧
      (k.kind = 3 → exec (.wrrsp p k) s = .next s)) ∧
    (x.up = true → pktGood k = false → k.vc = 1 → k.kind = 1 → flagged (.wr p k) (8 + p.val)) ∧
    (∀ q rest, s.chainReqs = q :: rest → (∀ z ∈ rest, z.reqid ≠ q.reqid) →
      let done : State := { s with chainReqs := rest }
      let value := (k.data.zipIdx.map fun w => w.1.toNat * 2 ^ (32 * w.2)).sum
      let got (r : Resp) (t : State) : Prop :=
        (∀ c z, q.who = .channel c → s.dma[c].out = some z → t = { done with dma := s.dma.set c { s.dma[c] with
          next := s.fc + 1, out := if z.drop then none else some { z with resp := some r } } }) ∧
        (∀ e f, q.who = .engine e → (s.eng e).fabOut = some f → t = { done with engines := s.engines.set e { s.eng e with
          fabNext := s.fc + 1, fabOut := some { f with resp := some r } } }) ∧
        (∀ i, q.who = .host i → (q.write = false ∨ ∃ v, r = .ok v) → t = { done with resp := r })
      (x.up = true → pktGood k = true → k.vc = 2 → k.len.toNat ≤ 64 → k.dst.toNat = s.devId → k.reqid = q.reqid →
        let r : Resp := if k.status = 0 then .ok (value % 2 ^ (8 * q.len)) else if k.status = 1 then .cap 1 else .bus 1
        (k.kind = 2 → ∃ t, exec (.rdrsp p k) s = .next t ∧ got r t) ∧ (k.kind = 3 → ∃ t, exec (.wrrsp p k) s = .next t ∧ got r t)) ∧
      (q.sent + 2 ^ 20 ≤ s.fc → ∃ t, exec (.chainResponseTimeout q.reqid) s = .next t ∧ got (.bus 1) t) ∧
      (s.fc < q.sent + 2 ^ 20 → exec (.chainResponseTimeout q.reqid) s = .next s)) ∧
    let written (u : State) : Prop := ∀ a, memByte u.mem a =
      if y ≤ a ∧ a < y + n then byteOf (k.data.getD ((a - y) / 4) 0).toNat ((a - y) % 4) else memByte s.mem a
    (x.up = true → pktGood k = true → (k.vc = 1 ∨ k.vc = 2) → k.kind = 1 → k.posted = true → k.len.toNat ≤ 64 → k.dst.toNat = s.devId →
      k.addr.toNat / 2 ^ 31 = k.dst.toNat → let due := s.vc1Due p k.slot
      (s.chainToken k = none → dropped (.wr p k)) ∧
      ∀ t, s.chainToken k = some t → linksUp → let w := s.tokWorld t
        (¬admits w true → dropped (.wr p k)) ∧
        (k.vc = 1 → admits w true → s.fc ≤ due →
          exec (.wr p k) s = .next { s with ports := s.ports.set p { x with vc1 := x.vc1 ++ [(due, k, w)] } }) ∧
        (k.vc = 1 → admits w true → due < s.fc → k.data.length = k.len.toNat → 0 < n → PoolAt s y n → FabricIdle s none → ∃ v u,
          DieWritten s v newt0 0x5808 (s.n0 0x5808 ||| BitVec.twoPow 32 (4 + p.val)) ∧ Granted v u way ∧
          exec (.wr p k) s = .next u ∧ u = { s with dies := u.dies, mem := u.mem } ∧ written u)) ∧
    (x.vc1 = [] → exec (.vc1Delivery p) s = .next s) ∧
    (∀ due w rest, x.vc1 = (due, k, w) :: rest → (s.fc < due → exec (.vc1Delivery p) s = .next s) ∧
      (due ≤ s.fc → k.kind = 1 → k.posted = true → k.data.length = k.len.toNat → 0 < n → PoolAt s y n → FabricIdle s none →
        k.addr.toNat / 2 ^ 31 = s.devId → ∃ u, exec (.vc1Delivery p) s = .next u ∧ Granted s u way ∧
          u = { s with ports := s.ports.set p { x with vc1 := rest }, dies := u.dies, mem := u.mem } ∧ written u))

/-- R314 to R316, Table 10-11: a channel keeps an input until every input of its tag is there, or the deadline has come; then it
combines them, with MISS and COUNT, and the word leaves on its port, or to its sink over a fabric that nothing else asks; a second
local contribution of a tag waits and is its first input once the tag is combined, and a fifth that waits is discarded. Stated
for one and two inputs. The model's choices in it: an event whose condition fails changes nothing (log 3); `resp` is the record
of the answer (log 8); repeated inputs (log 23); reserved reductions (log 65); the way takes no fc (log 84). -/
def Obligations.reduction : Prop :=
  ∀ (s : State) (c : RedId), let cfg := s.n0 (0x5A00 + 16 * c.val)
    let op := cfg.toNat / 2 ^ 28 % 8
    let x := s.reds[c]
    let tagOf (w : Dword) : BitVec 12 := BitVec.ofNat 12 (w.toNat / 2 ^ 32)
    let word (value : Word) (tag : BitVec 12) (miss : Bool) (count : Nat) : Dword := BitVec.ofNat 64
      (value.toNat + tag.toNat * 2 ^ 32 + c.val * 2 ^ 44 + (if miss then 2 ^ 47 else 0) + min 255 count * 2 ^ 48)
    let two (a b : Word) : Word := match op with
      | 0 => clamp32 (a.toInt + b.toInt) | 1 => a + b | 2 => if a.slt b then b else a | 3 => if b.slt a then b else a
      | 4 => a ||| b | _ => a &&& b
    let countOf (w : Dword) : Nat := w.toNat / 2 ^ 48 % 2 ^ 8
    let keeps (tags : List RedTag) : State := { s with reds := s.reds.set c { x with tags := tags } }
    let none_ (tag : BitVec 12) : Prop := ∀ q ∈ x.queued, q.1 ≠ tag
    let leaves (rest : List RedTag) (value : Word) (tag : BitVec 12) (miss : Bool) (count : Nat) (t : State) : Prop :=
      (∀ q : PortId, cfg.getLsbD 16 = false → cfg.getLsbD 17 = true → cfg.toNat / 2 ^ 18 % 4 = q.val → s.ports[q].up = true →
        t = { keeps rest with ports := s.ports.set q { s.ports[q] with redTx := s.ports[q].redTx ++ [word value tag miss count] } }) ∧
      (∀ e q, cfg.getLsbD 16 = true → cfg.getLsbD 17 = false → s.physOf (cfg.toNat / 2 ^ 8 % 2 ^ 7) = some e →
        q = cfg.toNat % 16 → (s.eng e).iqHeld = [] → ((s.eng e).iq.getD q []).length + 8 ≤ 64 → FabricIdle s none →
        Granted s t (portsTo newt0 (engDie e) (0x10 + engIndex e)) ∧ t = { keeps rest with dies := t.dies, engines := s.engines.set e { s.eng e with iq := (s.eng e).iq.setIfInBounds q ((s.eng e).iq.getD q [] ++
          [value, BitVec.ofNat 32 ((if miss then 2 ^ 31 else 0) + min 255 count * 2 ^ 16 + c.val * 2 ^ 12 + tag.toNat),
            0, 0, 0, 0, 0, 0]) } })
    op < 6 → cfg.getLsbD 31 = true →
    (∀ (p : PortId) (w : Dword), s.ports[p].up = true → w.toNat / 2 ^ 44 % 8 = c.val →
      (cfg.getLsbD (24 + p) = false → exec (.reductionWord p w) s = .next s) ∧
      (cfg.getLsbD (24 + p) = true → (∀ t ∈ x.tags, t.tag ≠ tagOf w) → none_ (tagOf w) →
        let sole := cfg.getLsbD 20 = false ∧ ∀ q : PortId, q ≠ p → cfg.getLsbD (24 + q) = false
        (sole → ∃ t, exec (.reductionWord p w) s = .next t ∧ leaves x.tags (w.setWidth 32) (tagOf w) (w.getLsbD 47) (countOf w) t) ∧
        (¬sole → exec (.reductionWord p w) s = .next (keeps (x.tags ++ [{ tag := tagOf w, since := s.fc, inputs := [(p.val, w)] }])))) ∧
      (∀ t rest v, x.tags = t :: rest → (∀ u ∈ rest, u.tag ≠ t.tag) → t.tag = tagOf w → t.inputs = [(4, v)] → cfg.getLsbD 20 = true →
        (∀ q : PortId, cfg.getLsbD (24 + q) = decide (q = p)) →
        let out := leaves rest (two (v.setWidth 32) (w.setWidth 32)) t.tag (v.getLsbD 47 || w.getLsbD 47) (1 + countOf w)
        (none_ t.tag → ∃ u, exec (.reductionWord p w) s = .next u ∧ out u) ∧
        ∀ v2, x.queued = [(t.tag, v2)] → ∃ u, out u ∧ exec (.reductionWord p w) s = .next { u with
          reds := s.reds.set c { tags := rest ++ [{ tag := t.tag, since := s.fc, inputs := [(4, v2)] }], queued := [] } })) ∧
    (∀ (m : Master) (v : Word) (r : RegInfo), MayWrite s m (.die newt0 (0x5A04 + 16 * c.val)) r → cfg.getLsbD 20 = true →
      (∃ q : PortId, cfg.getLsbD (24 + q) = true) → let tag : BitVec 12 := (s.n0 (0x5A08 + 16 * c.val)).setWidth 12
      let waiting := (x.tags.filter fun t => t.inputs.any fun p => p.1 == 4).length + x.queued.length
      ((∀ t ∈ x.tags, t.tag ≠ tag) → waiting < 4 → exec (.reductionLocal m c v) s = .next { keeps (x.tags ++ [{
        tag := tag, since := s.fc, inputs := [(4, word v tag false 0)] }]) with resp := .ok 0 }) ∧
      ((∃ t ∈ x.tags, t.tag = tag ∧ ∃ p ∈ t.inputs, p.1 = 4) → waiting < 4 → exec (.reductionLocal m c v) s =
        .next { s with resp := .ok 0, reds := s.reds.set c { x with queued := x.queued ++ [(tag, word v tag false 0)] } }) ∧
      (4 ≤ waiting → exec (.reductionLocal m c v) s = .next { s with resp := .ok 0 })) ∧
    (∀ t rest (p : PortId) w, x.tags = t :: rest → (∀ u ∈ rest, u.tag ≠ t.tag) → none_ t.tag → t.inputs = [(p.val, w)] → cfg.getLsbD (24 + p) = true →
      (cfg.getLsbD 20 = true ∨ ∃ q : PortId, q ≠ p ∧ cfg.getLsbD (24 + q) = true) →
      let due := t.since + (s.n0 (0x5A0C + 16 * c.val)).toNat % 2 ^ 12
      (due ≤ s.fc → ∃ u, exec (.reductionDeadline c t.tag) s = .next u ∧ leaves rest (w.setWidth 32) t.tag true (countOf w) u) ∧
      (s.fc < due → exec (.reductionDeadline c t.tag) s = .next s))

/-! ## Pattern associators -/

/-- R254, R256 to R266, FOX_CTL: a write to the hit input is queued or held; the front word is applied as its kind says; an end
marker closes its event with the roads of R261 and one end-of-roads word; words are formed one at a time and leave in pairs to
the sink, over a fabric that nothing else asks; a pair that its queue has no room for is held there. The model's choices in it: an
event whose condition fails changes nothing (log 3); `resp` is the record of the answer (log 8); when the open event is discarded
(log 27); the way takes no fc (log 84); what EN = 0 leaves (log 107); what a power-off in MD9 leaves (log 115). -/
def Obligations.foxglove_events : Prop :=
  ∀ (s : State) (g : GeckoId), let x := s.fox[g]
    let d := geckoDie g
    let stat := s.dGet d 0x6004
    let ctl := s.dGet d 0x6000
    let dest := s.dGet d 0x6014
    let into (y : Fox) : State := { s with fox := s.fox.set g y }
    let flags (c : Instr) (y : Fox) (en : Vector Engine 100) (v : Word) : Prop := ∃ t,
      exec c s = .next { t with fox := s.fox.set g y, engines := en, resp := s.resp } ∧ DieWritten s t d 0x6004 v
    let sends (k : EngineId) (y : Fox) (h : Engine) (v : Word) : Prop := ∃ u t, Granted s u [(d, 0x10 + engIndex k)] ∧
      u = { s with dies := u.dies } ∧ DieWritten u t d 0x6004 v ∧
      exec (.roadOutput g) s = .next { t with fox := s.fox.set g y, engines := s.engines.set k h, resp := s.resp }
    let words (ws : W256) (st : Word) : List (Word × Bool × Nat) := (List.range 8).map fun j =>
      ((ws >>> (32 * j)).setWidth 32, decide (st.toNat / 2 ^ (4 * j) % 16 = 15), s.fc + 2 + j / 2)
    let retired (l : Nat) (port : Nat) (v : Word) : Prop := ∃ i, i < 144 ∧
      (if port = 0x6100 + 0x20 * l + 4 * (i / 32) then v else s.dGet d (0x6100 + 0x20 * l + 4 * (i / 32))).getLsbD (i % 32) = true ∧
      s.chanMask.getLsbD i = true
    (∀ n l, x.late = [] → l < 8 →
      ((s.foxEff g n).testBit l = true ↔ (s.dGet d 0x6008).getLsbD l = true ∨ retired l 0 0)) ∧
    (∀ n l t port old, x.late = [(t, port, old)] → l < 8 → n < t →
      ((s.foxEff g n).testBit l = true ↔ (if port = 0x6008 then old else s.dGet d 0x6008).getLsbD l = true ∨ retired l port old)) ∧
    (x.segReq = [] → x.marks = [] →
      ((s.die d).mode = 0 ∨ ((s.die d).mode = 9 ∧ ctl.getLsbD 31 = false ∧ x.late = [] ∧ x.ctxs = []) →
        exec (.nullWord g) s = .next s ∧ exec (.hitWord g) s = .next s ∧ exec (.endMarker g) s = .next s ∧
        exec (.invalidWord g) s = .next s ∧ exec (.roadOutput g) s = .next s) ∧
      ((s.die d).mode = 0 → exec (.outputHoldRelease g) s = .next s)) ∧
    (∀ due port clr set, x.queue = [] → x.segReq = [] → x.marks = [(due, port, clr, set)] →
      (s.fc < due → exec (.nullWord g) s = .next s) ∧
      (due ≤ s.fc → ∃ t, exec (.nullWord g) s = .next { t with fox := s.fox.set g { x with marks := [] }, resp := s.resp } ∧
        DieWritten s t d port (s.dGet d port &&& ~~~clr ||| set))) ∧
    (x.drops = [] → x.late = [] → x.segReq = [] → x.marks = [] → (s.die d).mode ≠ 0 →
      ((s.die d).mode = 9 → ctl.getLsbD 31 = true ∨ ∃ c ∈ x.ctxs, c.out ≠ some []) →
      (∀ w full due rest, x.queue = (w, full, due) :: rest →
        let kind := if full then w.toNat / 2 ^ 30 else 0
        let waits : Prop := s.fc < due ∨ (x.lastApply = s.fc ∧ 2 ≤ x.applied)
        let popped : Fox := { x with
          queue := rest, applied := if x.lastApply = s.fc then x.applied + 1 else 1, lastApply := s.fc }
        let hit : Nat × Nat := (w.toNat / 2 ^ 16 % 8, w.toNat % 2 ^ 13)
        let closes (pre : List FoxCtx) (c : FoxCtx) (post : List FoxCtx) : Prop :=
          let thresh := ctl.toNat / 2 ^ 8 % 16
          let rlim := if ctl.toNat / 2 ^ 16 % 2 ^ 12 = 0 then 4096 else ctl.toNat / 2 ^ 16 % 2 ^ 12
          let dead := s.foxEff g (s.fc - 1)
          let found (r : W256) (l : Nat) : Bool := c.hits.any fun h =>
            let el := r.toNat / 2 ^ (16 * l) % 2 ^ 16
            h.1 == l && h.2 / 2 ^ (el / 2 ^ 13) == el % 2 ^ 13 / 2 ^ (el / 2 ^ 13)
          let count (r : W256) : Nat := (List.range 8).countP fun l => found r l || dead.testBit l
          let roads := x.array.filter fun q =>
            c.segon.getLsbD (q.1 / 4096) && !x.excluded.contains q.1 && q.2.getLsbD 160 && decide (thresh ≤ count q.2)
          let second := w.toNat % 2 ^ 12 + dead * 2 ^ 16
          let road (q : Nat × W256) : BitVec 128 := BitVec.ofNat 128 (q.1 +
            ((List.range 8).map fun l => if found q.2 l then 2 ^ (16 + l) else 0).sum + count q.2 * 2 ^ 24 + 2 ^ 30 +
            second * 2 ^ 32 + q.2.toNat / 2 ^ 128 % 2 ^ 32 * 2 ^ 64)
          let last := BitVec.ofNat 128 (min roads.length rlim + (if rlim < roads.length then 2 ^ 16 else 0) + 2 ^ 31 +
            (second + c.segon.toNat * 2 ^ 24) * 2 ^ 32 + thresh * 2 ^ 64)
          let out := (roads.take rlim).map road ++ [last]
          flags (.endMarker g) { popped with
            ctxs := pre ++ { c with out := some (if out.length % 2 = 0 then out else out ++ [0]), ready := s.fc + 64 } :: post }
            s.engines (if rlim < roads.length then stat ||| 0x8000000#32 else stat)
        ((waits ∨ kind ≠ 0) → exec (.nullWord g) s = .next s) ∧ ((waits ∨ kind ≠ 1) → exec (.hitWord g) s = .next s) ∧
        ((waits ∨ kind ≠ 2) → exec (.endMarker g) s = .next s) ∧ ((waits ∨ kind ≠ 3) → exec (.invalidWord g) s = .next s) ∧
        (¬waits → kind = 0 → ∀ ws st, x.waiting = [(ws, st, none)] → rest.length ≤ 24 →
          exec (.nullWord g) s = .next (into { popped with queue := rest ++ words ws st, waiting := [] })) ∧
        (¬waits → x.waiting = [] → (∀ c ∈ x.ctxs, c.out ≠ some []) →
          (kind = 0 → exec (.nullWord g) s = .next (into popped)) ∧
          (kind = 3 → flags (.invalidWord g) popped s.engines (stat ||| 0x20000000#32)) ∧
          (∀ pre c post, x.ctxs = pre ++ c :: post → c.out = none → (∀ y ∈ pre, y.out ≠ none) →
            (kind = 1 → exec (.hitWord g) s =
              .next (into { popped with ctxs := pre ++ { c with hits := c.hits ++ [hit] } :: post })) ∧
            (kind = 2 → closes pre c post)) ∧
          ((∀ c ∈ x.ctxs, c.out ≠ none) → x.ctxs.length < 4 →
            (kind = 1 → exec (.hitWord g) s = .next (into { popped with
              ctxs := x.ctxs ++ [{ hits := [hit], segon := x.online, out := none, ready := 0 }] })) ∧
            (kind = 2 → closes x.ctxs { hits := [], segon := x.online, out := none, ready := 0 } [])) ∧
          ((∀ c ∈ x.ctxs, c.out ≠ none) → 4 ≤ x.ctxs.length →
            (kind = 1 → flags (.hitWord g) x s.engines (stat ||| 0x80000000#32)) ∧
            (kind = 2 → flags (.endMarker g) x s.engines (stat ||| 0x80000000#32))))) ∧
      (x.queue = [] → exec (.nullWord g) s = .next s ∧ exec (.hitWord g) s = .next s ∧ exec (.endMarker g) s = .next s ∧
        exec (.invalidWord g) s = .next s) ∧
      (∀ c w ws rest, x.ctxs = c :: rest → c.out = some (w :: ws) → (∀ y ∈ rest, y.out ≠ some []) →
        let formed (buf : List (BitVec 128)) (hold : Bool) : Fox := { x with
          ctxs := { c with out := some ws } :: rest, buf := buf, holding := hold, lastOut := s.fc }
        let counted : Word := if w.toNat / 2 ^ 30 % 4 = 2 ∧ stat.toNat % 2 ^ 16 ≠ 0xFFFF then stat + 1 else stat
        ((s.fc < c.ready ∨ s.fc ≤ x.lastOut ∨ 64 ≤ x.buf.length) → exec (.roadOutput g) s = .next s) ∧
        (c.ready ≤ s.fc → x.lastOut < s.fc → x.buf.length < 64 →
          ((x.holding = true ∨ x.buf.length % 2 = 0) →
            flags (.roadOutput g) (formed (x.buf ++ [w]) x.holding) s.engines counted) ∧
          (∀ a, x.buf = [a] → x.holding = false →
            ((dest.getLsbD 31 = false ∨ (s.die d).mode = 11) → flags (.roadOutput g) (formed [] false) s.engines counted) ∧
            (∀ k, dest.getLsbD 31 = true → (s.die d).mode ≠ 11 → s.physEng d (dest.toNat % 16) = some k → (s.eng k).iqHeld = [] →
              FabricIdle s none → s.roadOut g = false →
              let q := dest.toNat / 16 % 16
              let queue := (s.eng k).iq.getD q []
              let pair : BitVec 256 := BitVec.ofNat 256 (a.toNat + w.toNat * 2 ^ 128)
              let eight : List Word := (List.range 8).map fun j => (pair >>> (32 * j)).setWidth 32
              (queue.length + 8 ≤ 64 → sends k (formed [] false) { s.eng k with
                iq := (s.eng k).iq.setIfInBounds q (queue ++ eight) } counted) ∧
              (64 < queue.length + 8 → sends k (formed [a, w] true)
                { (s.eng k).ioPut 0x80 (setBit ((s.eng k).ioGet 0x80) (16 + q) true) with
                  iqHeld := [{ queue := Fin.ofNat 16 q, words := eight, who := none, road := true }] }
                (counted ||| 0x40000000#32)))))) ∧
      (x.ctxs = [] → exec (.roadOutput g) s = .next s) ∧
      (x.holding = false ∨ s.roadOut g = true → exec (.outputHoldRelease g) s = .next s) ∧
      (x.holding = true → s.roadOut g = false → x.buf.length ≤ 3 →
        exec (.outputHoldRelease g) s = .next (into { x with buf := x.buf.drop 2, holding := false })) ∧
      (∀ a b a' b' k, x.holding = true → s.roadOut g = false → x.buf = [a, b, a', b'] → dest.getLsbD 31 = true →
        (s.die d).mode ≠ 11 → s.physEng d (dest.toNat % 16) = some k → (s.eng k).iqHeld = [] → FabricIdle s none →
        let q := dest.toNat / 16 % 16
        let queue := (s.eng k).iq.getD q []
        queue.length + 8 ≤ 64 → ∃ t, exec (.outputHoldRelease g) s = .next t ∧ Granted s t [(d, 0x10 + engIndex k)] ∧
          t = { into { x with buf := [], holding := false } with
            dies := t.dies
            engines := s.engines.set k { s.eng k with
              iq := (s.eng k).iq.setIfInBounds q (queue ++ (List.range 8).map fun j =>
                ((BitVec.ofNat 256 (a'.toNat + b'.toNat * 2 ^ 128)) >>> (32 * j)).setWidth 32) } }) ∧
      (∀ m ws st, let y := 0x14400000 + g.val * 0x800000
        (s.lark.opened = true → s.masterCheck (s.whoOf m) y 32 true = none) ∧
        (s.inReset = false → (∀ (d : DieId) (j : Fin 6), (s.die d).d2d[j].down = false) →
        (∀ e, m ≠ .pio e) → (∀ i, m ≠ .host i) → s.masterCheck (s.whoOf m) y 32 true = none →
        let who := match m with | .chain _ => s.outerWait | _ => none
        let answers (t : State) (r : Resp) : Prop := exec (.hitInputWrite m g ws st) s = .next { t with resp := r }
        (s.foxReady g = false ∨ (s.die d).mode = 0 → answers s (.bus 1)) ∧
        (s.foxReady g = true → (s.die d).mode = 11 → answers s (.ok 0)) ∧
        (s.foxReady g = true → (s.die d).mode ≠ 0 → (s.die d).mode ≠ 11 →
          (ctl.getLsbD 31 = false → answers s (.bus 1)) ∧
          (ctl.getLsbD 31 = true → x.waiting = [] → x.queue.length ≤ 24 →
            answers (into { x with queue := x.queue ++ words ws st }) (.ok 0)) ∧
          (ctl.getLsbD 31 = true → (x.waiting ≠ [] ∨ 24 < x.queue.length) →
            answers (into { x with waiting := x.waiting ++ [(ws, st, who)] }) .held)))) ∧
      (∀ m v r, MayWrite s m (.die d 0x6004) r → exec (.registerWrite m (.die d 0x6004) v) s =
        .next { into { x with marks := [(s.fc + 2, 0x6004, v &&& 0xF8000000#32, 0)] } with resp := .ok 0 }) ∧
      (∀ m v r, MayWrite s m (.die d 0x6000) r →
        let y : Fox := { x with
          late := [(s.fc + 2, 0x6000, ctl)], drops := if v.getLsbD 31 = true then [] else [s.fc + 2] }
        (4 ≤ v.toNat / 2 ^ 8 % 16 → v.toNat / 2 ^ 8 % 16 ≤ 8 → ∃ t, exec (.foxCtlWrite m g v) s = .next { t with fox := s.fox.set g y } ∧
          DieWritten s t d 0x6000 (v &&& 0x8FFF0F00#32)) ∧
        (¬(4 ≤ v.toNat / 2 ^ 8 % 16 ∧ v.toNat / 2 ^ 8 % 16 ≤ 8) → ∃ t,
          exec (.foxCtlWrite m g v) s = .next { t with fox := s.fox.set g { y with marks := [(s.fc + 2, 0x6004, 0, 0x10000000#32)] } } ∧
          DieWritten s t d 0x6000 (v &&& 0x8FFF0000#32 ||| ctl &&& 0xF00#32))))

/-- R255, R260, R268 to R270: a record is written while its segment is idle and offline; a request takes effect 2 fc after its
write; a segment is checked for 4,096 fc and goes online where its CRC agrees, with the copies of its enabled patterns; offline it
stays online for what samples it in that fc; the scrub, once per fc, repairs a copy that differs or fails its parity and excludes
a pattern whose record cannot be corrected. The model's choices in it: an event whose condition fails
changes nothing (log 3); `resp` is the record of the answer (log 8). -/
def Obligations.foxglove_segments : Prop :=
  ∀ (s : State) (g : GeckoId), let x := s.fox[g]
    let d := geckoDie g
    let ctl := s.dGet d 0x600C
    let into (y : Fox) : State := { s with fox := s.fox.set g y }
    let base := 0x14000000 + g.val * 0x800000
    let record (p : Nat) : W256 := BitVec.ofNat 256 (memNat s.mem (base + 32 * p) 32)
    x.drops = [] → (∀ c ∈ x.ctxs, c.out ≠ some []) → x.late = [] → x.marks = [] →
    (x.segReq = [] → (s.die d).mode = 0 ∨ ((s.die d).mode = 9 ∧ (s.dGet d 0x6000).getLsbD 31 = false ∧ x.ctxs = []) →
      exec (.patternScrub g) s = .next s ∧ ∀ i, exec (.segmentCheckDone g i) s = .next s) ∧
    (∀ (i : Fin 8) (t : Nat) (v : Word), x.segReq = [(t, v)] → x.queue = [] → ctl.toNat < 256 →
      let on := x.online.getLsbD i
      let idle : Prop := on = false ∧ x.checking.getLsbD i = false ∧ ∀ c ∈ x.ctxs, c.segon.getLsbD i = false
      let y : Fox := { x with segReq := [] };
      (s.fc < t → exec (.nullWord g) s = .next s) ∧
      (t ≤ s.fc → ctl.getLsbD i = false → v = ctl ||| BitVec.ofNat 32 (2 ^ i.val) →
        (idle → ∃ u, exec (.nullWord g) s = .next { u with
            fox := s.fox.set g { y with checking := setBit x.checking i true, checkAt := x.checkAt.set i t }, resp := s.resp } ∧
          DieWritten s u d 0x600C v) ∧
        (¬idle → exec (.nullWord g) s = .next (into y))) ∧
      (t ≤ s.fc → ctl.getLsbD i = true → v = ctl &&& ~~~(BitVec.ofNat 32 (2 ^ i.val)) →
        ∃ u, exec (.nullWord g) s = .next { u with
            fox := s.fox.set g { y with
              checking := setBit x.checking i false, online := setBit x.online i false
              late := if on then [(t, 0x6010, BitVec.ofNat 32 (2 ^ i.val))] else [] }
            resp := s.resp } ∧
          DieWritten s u d 0x600C v)) ∧
    (x.segReq = [] → (s.die d).mode ≠ 0 → ((s.die d).mode = 9 → (s.dGet d 0x6000).getLsbD 31 = true ∨ x.ctxs ≠ []) →
    (∀ (i : Fin 8),
      (∀ m r, MayWrite s m (.die d 0x600C) r → ctl.toNat < 256 →
        let asked (v : Word) : State := { into { x with segReq := [(s.fc + 2, v)] } with resp := .ok 0 }
        exec (.segmentOnlineRequest m g i) s = .next (asked (ctl ||| BitVec.ofNat 32 (2 ^ i.val))) ∧
        exec (.segmentOfflineRequest m g i) s = .next (asked (ctl &&& ~~~(BitVec.ofNat 32 (2 ^ i.val))))) ∧
      (x.checking.getLsbD i = false ∨ s.fc < x.checkAt[i] + 4096 → exec (.segmentCheckDone g i) s = .next s) ∧
      (x.checking.getLsbD i = true → x.checkAt[i] + 4096 ≤ s.fc →
        let crc := crc32c ((List.range 131072).map fun j => memByte s.mem (base + 131072 * i + j))
        let done : Fox := { x with
          checking := setBit x.checking i false, excluded := x.excluded.filter fun p => p / 4096 ≠ i }
        (crc = s.dGet d (0x6020 + 4 * i.val) → ∃ a, exec (.segmentCheckDone g i) s =
            .next (into { done with
              online := setBit x.online i true, array := a, parity := x.parity.filter fun p => p.1 / 4096 ≠ i }) ∧
          (x.array.Pairwise (fun p q => p.1 < q.1) → a.Pairwise fun p q => p.1 < q.1) ∧
          ∀ p r, (p, r) ∈ a ↔ if p / 4096 = i then r = record p ∧ r.getLsbD 160 = true else (p, r) ∈ x.array) ∧
        (crc ≠ s.dGet d (0x6020 + 4 * i.val) → ∃ t u, exec (.segmentCheckDone g i) s =
            .next { t with fox := s.fox.set g done, resp := s.resp } ∧
          DieWritten s u d 0x600C (ctl &&& ~~~(BitVec.ofNat 32 (2 ^ i.val))) ∧
          DieWritten u t d 0x6010 (s.dGet d 0x6010 ||| BitVec.ofNat 32 (2 ^ (16 + i.val)))))) ∧
    (∀ m (p : Fin 32768) ws st, s.inReset = false → (∀ (d : DieId) (j : Fin 6), (s.die d).d2d[j].down = false) →
      (∀ e, m ≠ .pio e) → (∀ i, m ≠ .host i) →
      let y := base + 32 * p.val
      (s.lark.opened = true → s.masterCheck (s.whoOf m) y 32 true = none) ∧
      (s.masterCheck (s.whoOf m) y 32 true = none →
      let idle : Prop := s.segIdle g (p.val / 4096) = true
      ((s.foxReady g = false ∨ (s.die d).mode = 0 ∨ ¬idle) → exec (.patternWrite m g p ws st) s = .next { s with resp := .bus 1 }) ∧
      (s.foxReady g = true → (s.die d).mode ≠ 0 → idle → s.ecc = [] → ∃ t, exec (.patternWrite m g p ws st) s = .next t ∧
        t = { s with mem := t.mem, resp := .ok 0 } ∧
        ∀ a, memByte t.mem a = (strobed y 32 st.toNat ws.toNat a).getD (memByte s.mem a)))) ∧
    ((x.online = 0 ∨ x.scrubAt = some s.fc) → exec (.patternScrub g) s = .next s) ∧
    (x.scrub < 32768 → x.scrubAt ≠ some s.fc → let seg := x.scrub / 4096
      (∀ k, 1 ≤ k → k ≤ 8 → (∀ j, j < k → x.online.getLsbD ((seg + j) % 8) = false) → x.online.getLsbD ((seg + k) % 8) = true →
        exec (.patternScrub g) s = exec (.patternScrub g) (into { x with scrub := (seg + k) % 8 * 4096 })) ∧
      (x.online.getLsbD seg = true → let p := x.scrub
        let r := record p
        let next : Fox := { x with scrub := (p + 1) % 32768, scrubAt := some s.fc }
        let err := s.dGet d 0x6018
        let raised : Vector Engine 100 := .ofFn fun e => if engDie e = d then (s.eng e).setLine 3 else s.eng e
        let kept : Prop := (∀ v, (p, v) ∈ x.array ↔ r.getLsbD 160 = true ∧ v = r) ∧ ∀ q ∈ x.parity, q.1 ≠ p
        (s.ecc = [] → x.array.Pairwise (fun p q => p.1 < q.1) →
          (kept → exec (.patternScrub g) s = .next (into next)) ∧
          (¬kept → ∃ t a, exec (.patternScrub g) s =
              .next { t with
                fox := s.fox.set g { next with array := a, parity := x.parity.filter fun q => q.1 ≠ p }, resp := s.resp } ∧
            DieWritten s t d 0x6018 (if err.getLsbD 31 = true then err else BitVec.ofNat 32 (0xA0000000 + p)) ∧
            a.Pairwise (fun p q => p.1 < q.1) ∧
            ∀ q v, (q, v) ∈ a ↔ if q = p then r.getLsbD 160 = true ∧ v = r else (q, v) ∈ x.array)) ∧
        (∀ j, j < 4 → s.eccOf (wordKey (0x30000 + g.val) (4 * p + j)) = 2 → p ∉ x.excluded → ∃ t, exec (.patternScrub g) s =
            .next { t with fox := s.fox.set g { next with excluded := p :: x.excluded }, resp := s.resp, engines := raised } ∧
          DieWritten s t d 0x6018 (if err.getLsbD 31 = true ∧ err.getLsbD 30 = true then err
            else BitVec.ofNat 32 (0xC0000000 + p))))))

/-! ## The package as a whole -/

/-- R14, R415, R423 to R425, R430, R431, R435, R440, R442, R447 to R450: what POR_N and the supply monitor reset, what bring-up
leaves, the Keeper's boot from either flash copy or the mailbox, PERST_N and the PCIe link, temperature, the I2C target and the
JTAG port, which does not run in reset. The model's choices in it: open values are free (log 1); an event whose condition fails
changes nothing (log 3); unwritten memory reads 0 (log 4); registers without a reset value start at 0 (log 5); `resp` is the
record of the answer (log 8); masked and pending vectors (log 12); unrecorded retirements are lost at reset (log 14); what a reset
that holds turns away (log 19); the bytes of an image (log 30); the order of boundary cells (log 37); POR_N as one command (log
67); measured quantities come with their commands (log 69); pin levels (log 71); what the endpoint has no command for (log 116);
what EXTEST shifts in (log 118). -/
def Obligations.package_and_pins : Prop :=
  ∀ (s : State), let aon := (s.n0 0x7E00).getLsbD 0
    let alone (t u : State) : Prop := t = { u with dies := u.dies.set newt0 (t.die newt0), pcie := t.pcie } ∧
      { t.die newt0 with regs := [] } = { u.die newt0 with regs := [] }
    (∀ c hold, (c = .powerOnReset ∧ hold = false) ∨ (c = .supplyMonitorReset ∧ hold = true) → ∃ t, exec c s = .next t ∧
      t = { State.reset with
        pending := s.pending, cal := s.cal, retired := t.retired, ecc := s.ecc.filter fun p => p.2 == 3
        sealKey := Config.randomKey s.freeCtr, freeCtr := s.freeCtr + 1, supplyHold := hold
        pins := { s.pins with por := !hold || s.pins.por, outQuiet := 0, fineNew := 0 }, liveTemp := s.liveTemp, i2cData := s.i2cData
        dies := t.dies } ∧
      (∀ d, { t.die d with spares := [] } = { State.reset.die d with spares := [] }) ∧
      ∀ p, p ∈ t.retired ↔ p ∈ s.retired ∧ ∀ d, ∀ q ∈ (s.die d).toRecord, wordKey q.1 q.2 ≠ p.1) ∧
    (∀ straps, ((s.inReset = true ∨ aon = true) → exec (.bringUp straps) s = .next s) ∧
      (s.inReset = false → aon = false → ∃ t, exec (.bringUp straps) s = .next t ∧
        t = { s with
          pins := { s.pins with i2cA := straps }, chanMask := t.chanMask, mem := [], throttled := false
          pcie := { s.pcie with training := s.pins.perst }, lanes := t.lanes
          dies := s.dies.set newt0 (t.die newt0), engines := s.engines.set keeper (t.eng keeper) } ∧
        { t.die newt0 with regs := [] } = { s.die newt0 with regs := [] } ∧
        (∀ k, k < 10 → t.n0 (0x7E00 + 4 * k) = [0x3F3F0023#32, 0xFFFFFFFF#32, 0xFFFFFFFF#32, 0xFFFFFFFF#32, 0xF#32, 0#32, 0#32,
          0xFFFFFFFF#32, 0xFFFFFFFF#32, 0xFFFFFFFF#32].getD k 0) ∧
        (∀ q, (∀ k, k < 10 → q ≠ 0x7E00 + 4 * k) → t.n0 q = s.n0 q) ∧
        (∀ l : LaneId, t.chanMask.getLsbD l = (memByte s.cal (0x200 + l / 8)).getLsbD (l % 8) ∧
          t.lanes[l] = if t.chanMask.getLsbD l = true then { s.lanes[l] with st := .retired } else s.lanes[l]) ∧
        (t.eng keeper).ioGet 0x81C = 1 ∧ (∀ q, q ≠ 0x81C → (t.eng keeper).ioGet q = (s.eng keeper).ioGet q) ∧
        { t.eng keeper with io := [] } = { s.eng keeper with io := [], romA := true, imem := [], held := false })) ∧
    (s.inReset = true → exec .perst s = .next { s with pins := { s.pins with perst := false } }) ∧
    (s.inReset = false → (∀ d, smWf (fun _ => none) (s.die d).claims = true) → ∃ t, exec .perst s = .next t ∧
      t = { s with
        pins := { s.pins with perst := false }, pcie := {}, hslots := .replicate 64 {}, dies := t.dies
        beats := s.beats.filter fun b => match b.use with | .host _ _ _ _ _ _ _ => false | _ => true
        chainReqs := s.chainReqs.filter fun r => match r.who with | .host _ => false | _ => true } ∧
      (∀ d r, t.claimOf d r = (s.claimOf d r).filter fun c => c.holder ≠ .host) ∧
      (∀ d, { t.die d with regs := [], claims := [] } = { s.die d with regs := [], claims := [] })) ∧
    exec .perstRelease s =
      .next { s with pins := { s.pins with perst := true }, pcie := { s.pcie with training := aon } } ∧
    (s.pcie.training = false → exec .pcieLinkUp s = .next s) ∧
    (s.pcie.training = true → s.pins.perst = true → ∃ t, exec .pcieLinkUp s = .next t ∧
      let goes (n : Nat) : Bool := s.pcie.pend.getLsbD n && s.pcie.enable && !s.pcie.fmask && !(s.bar0 (0xC00 + 16 * n + 12)).getLsbD 0
      t = { s with pcie := { s.pcie with link := true, pend := t.pcie.pend, sent := s.pcie.sent ++ (List.range 64).filter goes } } ∧
      ∀ n, n < 64 → t.pcie.pend.getLsbD n = (s.pcie.pend.getLsbD n && !goes n)) ∧
    exec .pcieLinkDown s = .next { s with pcie := { s.pcie with link := false } } ∧
    let started (c : Instr) (image : List Byte) (src : Nat) : Prop := ∃ t, exec c s = .next t ∧ t.pcie = (s.msi 3).pcie ∧
      (∀ x ∈ imgSects image, ∀ j,
        (x.kind = 2 → j < x.size / 4 → (t.eng keeper).imemGet (8 * x.target + j) = BitVec.ofNat 32 (imgNat image (x.foff + 4 * j) 4)) ∧
        (x.kind = 3 → j < x.size → memByte t.mem (0x10000000 + 96 * 0x40000 + x.target + j) = image.getD (x.foff + j) 0) ∧
        (x.kind = 4 → j < x.size → memByte t.mem (0x10000000 + 96 * 0x40000 + x.target + j) = 0)) ∧
      (t.eng keeper).mode = (s.eng keeper).mode ∧ (t.eng keeper).sup = (s.eng keeper).sup ∧
      if (t.eng keeper).accepted true = true then t.n0 0x7F20 = BitVec.ofNat 32 (16 * src + 3) ∧ (t.n0 0x7E00).getLsbD 6 = true ∧
        (t.eng keeper).pc = BitVec.ofNat 32 (imgNat image 0x18 4) ∧ (t.eng keeper).activeB = true ∧ (t.eng keeper).everRun = true
      else t.n0 0x7F20 = BitVec.ofNat 32 (0x504 + 16 * src)
    (∀ sfdp first second, let ready := s.n0 0x7E00
      let may : Prop := ready.getLsbD 1 = true ∧ ready.getLsbD 5 = true ∧ ready.getLsbD 24 = true ∧ s.n0 0x7F20 = 0 ∧ (s.eng keeper).mode = 1
      let src := memNat s.cal 0 4 % 4
      let ends (u : State) (v : Word) : Prop := ∃ t, exec (.keeperBoot sfdp first second) s =
          .next { t with resp := s.resp, pcie := if v.toNat % 16 = 4 then (s.msi 3).pcie else s.pcie } ∧ DieWritten u t newt0 0x7F20 v
      let copied (l : List Byte) (old : Memory) (a : Nat) : Byte := if a < 0x400000 then l.getD a (memByte old a) else memByte old a
      let image := flashImage first
      let spare := flashImage second
      (¬may → exec (.keeperBoot sfdp first second) s = .next s) ∧
      (may → src = 2 → ends s 0x31) ∧
      (may → src ≠ 2 → sfdp = false → ends s (if src = 1 then 0x104 else 0x31)) ∧
      (may → src ≠ 2 → sfdp = true → s.bootOk image = false → s.bootOk spare = false →
        ∃ m1 m2, ends { s with mem := m2 } (if src = 1 then 0x224 else 0x31) ∧ (∀ a, memByte m1 a = copied first s.mem a) ∧
          ∀ a, memByte m2 a = copied second m1 a) ∧
      (may → src ≠ 2 → sfdp = true → s.bootOk image = true →
        ((∃ x ∈ imgSects image, x.kind = 1) → ∃ m1, ends { s with mem := m1 } 0x414 ∧ ∀ a, memByte m1 a = copied first s.mem a) ∧
        ((∀ x ∈ imgSects image, x.kind ≠ 1) → started (.keeperBoot sfdp first second) image 1)) ∧
      (may → src ≠ 2 → sfdp = true → s.bootOk image = false → s.bootOk spare = true →
        ((∃ x ∈ imgSects spare, x.kind = 1) → ∃ m1 m2, ends { s with mem := m2 } 0x424 ∧ (∀ a, memByte m1 a = copied first s.mem a) ∧
          ∀ a, memByte m2 a = copied second m1 a) ∧
        ((∀ x ∈ imgSects spare, x.kind ≠ 1) → started (.keeperBoot sfdp first second) spare 2))) ∧
    (∀ m v r, MayWrite s m (.die newt0 0x7F24) r → let n := v &&& 0x7FFFFF#32
      ((s.n0 0x7F20).toNat % 16 ≠ 1 → ∃ t, exec (.bootMboxWrite m v) s = .next t ∧ DieWritten s t newt0 0x7F24 n) ∧
      let image := leBytes n.toNat (memNat s.mem 0 n.toNat)
      let fails (code : Word) : Prop := ∃ t u, exec (.bootMboxWrite m v) s = .next { t with pcie := (s.msi 3).pcie } ∧
        DieWritten s u newt0 0x7F24 n ∧ DieWritten u t newt0 0x7F20 code
      let fits := n ≠ 0 ∧ n.toNat ≤ 0x400000 ∧ s.bootOk image = true
      ((s.n0 0x7F20).toNat % 16 = 1 → (¬fits → fails 0x334) ∧ (fits → (∃ x ∈ imgSects image, x.kind = 1) → fails 0x434) ∧
        (fits → (∀ x ∈ imgSects image, x.kind ≠ 1) → started (.bootMboxWrite m v) image 3))) ∧
    (∀ codes : Dword, let code (d : Nat) := codes.toNat / 2 ^ (8 * d) % 2 ^ 8
      let hot := ∃ d, d < 8 ∧ 179 ≤ code d
      let cool := ∀ d, d < 8 → code d ≤ 174
      let trips := ∃ d, d < 8 ∧ 199 ≤ code d
      let alarm := s.n0 0x7F08
      let raised : State := { s with engines := .ofFn fun e => (s.eng e).setLine 7 }
      (aon = false → exec (.thermalSample codes) s = .next s) ∧
      (aon = true → ∃ t, exec (.thermalSample codes) s = .next t ∧
        t.n0 0x7F00 = codes.setWidth 32 ∧ t.n0 0x7F04 = (codes >>> 32).setWidth 32 ∧
        (∀ q, q ≠ 0x7F00 → q ≠ 0x7F04 → q ≠ 0x7F08 → t.n0 q = s.n0 q) ∧
        (hot → t.n0 0x7F08 = alarm ||| 1 ∧ alone t { raised with liveTemp := codes, throttled := true } ∧
          t.pcie = if s.throttled = true then s.pcie else (s.msi 1).pcie) ∧
        (¬hot → t.pcie = s.pcie ∧ (s.throttled = true → cool → t.n0 0x7F08 = alarm &&& ~~~1#32 ∧
            alone t { s with liveTemp := codes, throttled := false }) ∧
          (¬(s.throttled = true ∧ cool) → t.n0 0x7F08 = alarm ∧ alone t { s with liveTemp := codes }))) ∧
      (¬trips ∨ s.inReset = true → exec (.thermalTrip codes) s = .next { s with liveTemp := codes }) ∧
      (trips → s.inReset = false → ∃ t, exec (.thermalTrip codes) s = .next t ∧
        t = { s with liveTemp := codes, engines := t.engines, dies := t.dies, pcie := t.pcie } ∧
        (∀ e, (t.eng e).mode = 11 ∧ (t.eng e).gr = (s.eng e).gr ∧ (t.eng e).pc = (s.eng e).pc ∧
          ((s.eng e).mode ≠ 11 → (t.eng e).ioGet 0xB30 = 5) ∧ ((s.eng e).mode = 11 → t.eng e = s.eng e)) ∧
        (∀ d, (t.die d).mode = 11 ∧ (t.die d).qreason = if (s.die d).mode = 11 then (s.die d).qreason else 5) ∧
        (∀ d q, t.dGet d q = if d = newt0 ∧ q = 0x7F08 then alarm ||| 2 else s.dGet d q) ∧
        t.pcie = if s.tripped = true then s.pcie else if s.faultPin = true then (s.msi 1).pcie else ((s.msi 1).msi 2).pcie)) ∧
    (∀ m r, MayWrite s m (.die newt0 0x7F08) r → let cold := ∀ d, d < 8 → s.liveTemp.toNat / 2 ^ (8 * d) % 2 ^ 8 < 189
      (cold → ∃ t, exec (.tripClear m) s = .next t ∧ DieWritten s t newt0 0x7F08 (s.n0 0x7F08 &&& ~~~2#32)) ∧
      (¬cold → exec (.tripClear m) s = .next { s with resp := .ok 0 })) ∧
    (∀ index, exec (.i2cIndexWrite index) s = .next (if aon = true then { s with i2cIndex := index } else s)) ∧
    (aon = false → exec .i2cRead s = .next s) ∧
    (aon = true → ∃ v, exec .i2cRead s = .next { s with i2cData := v, i2cIndex := s.i2cIndex + 4 } ∧ let p := s.i2cIndex.toNat
      (∀ k, k < 10 → p = 0x7E00 + 4 * k → v = s.ready k) ∧
      ((p = 0x7F00 ∨ p = 0x7F04 ∨ p = 0x7F08 ∨ p = 0x7F20) → v = s.n0 p) ∧
      (p = 0x7F28 → v = BitVec.ofNat 32 (stepCode Config.stepping * 2 ^ 28 + 0x7144000)) ∧ (p = 0x5004 → v = s.helStat) ∧
      ((∀ k, k < 10 → p ≠ 0x7E00 + 4 * k) → p ∉ [0x7F00, 0x7F04, 0x7F08, 0x7F20, 0x7F28, 0x5004] → v = 0)) ∧
    (s.inReset = true → (∀ c ∈ [Instr.extest, .extestPulse, .extestTrain, .clamp, .highz, .bypass, .idcode, .tapReset, .readyscan],
      exec c s = .next s) ∧ ∀ x, exec (.samplePreload x) s = .next s) ∧
    (s.inReset = false →
    (∀ c ir, (c, ir) ∈ [(Instr.extest, 0#8), (.extestPulse, 5#8), (.extestTrain, 6#8)] ∨ (∃ x, c = .samplePreload x ∧ ir = 1#8) →
      ∃ dr, exec c s = .next { s with
          freeCtr := s.freeCtr + 13
          tap := { s.tap with ir := ir, dr := dr, boundary := match c with | .samplePreload x => x | _ => s.tap.boundary } } ∧
        dr.getLsbD 41 = s.pins.por ∧ dr.getLsbD 42 = s.pins.perst ∧ dr.getLsbD 43 = s.pins.halt ∧
        let shown (cell : Nat) (level : Bool) : Bool := if s.tap.ir ∈ [0x00#8, 0x03#8] then s.tap.boundary.getLsbD cell else level
        dr.getLsbD 44 = (decide (s.tap.ir = 4#8) || shown 44 (!s.faultPin)) ∧
        dr.getLsbD 45 = (decide (s.tap.ir = 4#8) || shown 45 s.readyPin) ∧ (s.tap.ir ≠ 4#8 → dr.getLsbD 46 = shown 46 s.pwrFail) ∧
        (∀ k, k < 16 → dr.getLsbD (51 + k) = s.pins.decIn.getLsbD k) ∧ (∀ j, j < 3 → dr.getLsbD (69 + j) = s.pins.i2cA.val.testBit j) ∧
        ∀ k, k < 32 → let cell := if k < 16 then 2 + k else 9 + k
          dr.getLsbD cell = if s.tap.ir ∈ [0x00#8, 0x03#8, 0x04#8] then s.tap.boundary.getLsbD cell else s.decPin k) ∧
    (∀ c ir (dr : BitVec 396), (c, ir, dr) ∈ [(Instr.clamp, 3#8, 0), (.highz, 4#8, 0), (.bypass, 0xFF#8, 0),
        (.idcode, 2#8, BitVec.ofNat 396 (stepCode Config.stepping * 2 ^ 28 + 0x7144DAB)),
        (.tapReset, 2#8, BitVec.ofNat 396 (stepCode Config.stepping * 2 ^ 28 + 0x7144DAB))] →
      exec c s = .next { s with tap := { s.tap with ir := ir, dr := dr } }) ∧
    ∃ dr, exec .readyscan s = .next { s with tap := { s.tap with ir := 0x10, dr := dr } } ∧
      ∀ k i, k < 10 → i < 32 → dr.getLsbD (32 * k + i) = (s.ready k).getLsbD i)
end

