-- ==== Sys2Proof/Laws/State.lean ====
section
/-!
SUPPORT. Laws/State.lean: what each update of one part of the state leaves as it was, and what it makes of that part. True by
definition; simp uses them, so that no proof unfolds a record update.
-/
namespace Sys2Proof.Machine

/-! ## modEng -/

@[simp] theorem State.modEng_pending (s : State) (e : EngineId) (f : Engine → Engine) : (s.modEng e f).pending = s.pending := rfl
@[simp] theorem State.modEng_dies (s : State) (e : EngineId) (f : Engine → Engine) : (s.modEng e f).dies = s.dies := rfl
@[simp] theorem State.modEng_dma (s : State) (e : EngineId) (f : Engine → Engine) : (s.modEng e f).dma = s.dma := rfl
@[simp] theorem State.modEng_lanes (s : State) (e : EngineId) (f : Engine → Engine) : (s.modEng e f).lanes = s.lanes := rfl
@[simp] theorem State.modEng_groups (s : State) (e : EngineId) (f : Engine → Engine) : (s.modEng e f).groups = s.groups := rfl
@[simp] theorem State.modEng_ports (s : State) (e : EngineId) (f : Engine → Engine) : (s.modEng e f).ports = s.ports := rfl
@[simp] theorem State.modEng_chainReqs (s : State) (e : EngineId) (f : Engine → Engine) : (s.modEng e f).chainReqs = s.chainReqs := rfl
@[simp] theorem State.modEng_beats (s : State) (e : EngineId) (f : Engine → Engine) : (s.modEng e f).beats = s.beats := rfl
@[simp] theorem State.modEng_nextReq (s : State) (e : EngineId) (f : Engine → Engine) : (s.modEng e f).nextReq = s.nextReq := rfl
@[simp] theorem State.modEng_stops (s : State) (e : EngineId) (f : Engine → Engine) : (s.modEng e f).stops = s.stops := rfl
@[simp] theorem State.modEng_stopNo (s : State) (e : EngineId) (f : Engine → Engine) : (s.modEng e f).stopNo = s.stopNo := rfl
@[simp] theorem State.modEng_reds (s : State) (e : EngineId) (f : Engine → Engine) : (s.modEng e f).reds = s.reds := rfl
@[simp] theorem State.modEng_fox (s : State) (e : EngineId) (f : Engine → Engine) : (s.modEng e f).fox = s.fox := rfl
@[simp] theorem State.modEng_skink (s : State) (e : EngineId) (f : Engine → Engine) : (s.modEng e f).skink = s.skink := rfl
@[simp] theorem State.modEng_mem (s : State) (e : EngineId) (f : Engine → Engine) : (s.modEng e f).mem = s.mem := rfl
@[simp] theorem State.modEng_cal (s : State) (e : EngineId) (f : Engine → Engine) : (s.modEng e f).cal = s.cal := rfl
@[simp] theorem State.modEng_ecc (s : State) (e : EngineId) (f : Engine → Engine) : (s.modEng e f).ecc = s.ecc := rfl
@[simp] theorem State.modEng_retired (s : State) (e : EngineId) (f : Engine → Engine) : (s.modEng e f).retired = s.retired := rfl
@[simp] theorem State.modEng_timNow (s : State) (e : EngineId) (f : Engine → Engine) : (s.modEng e f).timNow = s.timNow := rfl
@[simp] theorem State.modEng_fc (s : State) (e : EngineId) (f : Engine → Engine) : (s.modEng e f).fc = s.fc := rfl
@[simp] theorem State.modEng_helio (s : State) (e : EngineId) (f : Engine → Engine) : (s.modEng e f).helio = s.helio := rfl
@[simp] theorem State.modEng_coord (s : State) (e : EngineId) (f : Engine → Engine) : (s.modEng e f).coord = s.coord := rfl
@[simp] theorem State.modEng_lark (s : State) (e : EngineId) (f : Engine → Engine) : (s.modEng e f).lark = s.lark := rfl
@[simp] theorem State.modEng_objects (s : State) (e : EngineId) (f : Engine → Engine) : (s.modEng e f).objects = s.objects := rfl
@[simp] theorem State.modEng_sealKey (s : State) (e : EngineId) (f : Engine → Engine) : (s.modEng e f).sealKey = s.sealKey := rfl
@[simp] theorem State.modEng_mintWorld (s : State) (e : EngineId) (f : Engine → Engine) : (s.modEng e f).mintWorld = s.mintWorld := rfl
@[simp] theorem State.modEng_hslots (s : State) (e : EngineId) (f : Engine → Engine) : (s.modEng e f).hslots = s.hslots := rfl
@[simp] theorem State.modEng_chanMask (s : State) (e : EngineId) (f : Engine → Engine) : (s.modEng e f).chanMask = s.chanMask := rfl
@[simp] theorem State.modEng_mapStale (s : State) (e : EngineId) (f : Engine → Engine) : (s.modEng e f).mapStale = s.mapStale := rfl
@[simp] theorem State.modEng_pins (s : State) (e : EngineId) (f : Engine → Engine) : (s.modEng e f).pins = s.pins := rfl
@[simp] theorem State.modEng_liveTemp (s : State) (e : EngineId) (f : Engine → Engine) : (s.modEng e f).liveTemp = s.liveTemp := rfl
@[simp] theorem State.modEng_throttled (s : State) (e : EngineId) (f : Engine → Engine) : (s.modEng e f).throttled = s.throttled := rfl
@[simp] theorem State.modEng_supplyHold (s : State) (e : EngineId) (f : Engine → Engine) : (s.modEng e f).supplyHold = s.supplyHold := rfl
@[simp] theorem State.modEng_pcie (s : State) (e : EngineId) (f : Engine → Engine) : (s.modEng e f).pcie = s.pcie := rfl
@[simp] theorem State.modEng_tap (s : State) (e : EngineId) (f : Engine → Engine) : (s.modEng e f).tap = s.tap := rfl
@[simp] theorem State.modEng_i2cIndex (s : State) (e : EngineId) (f : Engine → Engine) : (s.modEng e f).i2cIndex = s.i2cIndex := rfl
@[simp] theorem State.modEng_i2cData (s : State) (e : EngineId) (f : Engine → Engine) : (s.modEng e f).i2cData = s.i2cData := rfl
@[simp] theorem State.modEng_resp (s : State) (e : EngineId) (f : Engine → Engine) : (s.modEng e f).resp = s.resp := rfl
@[simp] theorem State.modEng_freeCtr (s : State) (e : EngineId) (f : Engine → Engine) : (s.modEng e f).freeCtr = s.freeCtr := rfl

/-! ## mapEng -/

@[simp] theorem State.mapEng_pending (s : State) (f : EngineId → Engine → Engine) : (s.mapEng f).pending = s.pending := by rw [State.mapEng]
@[simp] theorem State.mapEng_dies (s : State) (f : EngineId → Engine → Engine) : (s.mapEng f).dies = s.dies := by rw [State.mapEng]
@[simp] theorem State.mapEng_dma (s : State) (f : EngineId → Engine → Engine) : (s.mapEng f).dma = s.dma := by rw [State.mapEng]
@[simp] theorem State.mapEng_lanes (s : State) (f : EngineId → Engine → Engine) : (s.mapEng f).lanes = s.lanes := by rw [State.mapEng]
@[simp] theorem State.mapEng_groups (s : State) (f : EngineId → Engine → Engine) : (s.mapEng f).groups = s.groups := by rw [State.mapEng]
@[simp] theorem State.mapEng_ports (s : State) (f : EngineId → Engine → Engine) : (s.mapEng f).ports = s.ports := by rw [State.mapEng]
@[simp] theorem State.mapEng_chainReqs (s : State) (f : EngineId → Engine → Engine) : (s.mapEng f).chainReqs = s.chainReqs := by rw [State.mapEng]
@[simp] theorem State.mapEng_beats (s : State) (f : EngineId → Engine → Engine) : (s.mapEng f).beats = s.beats := by rw [State.mapEng]
@[simp] theorem State.mapEng_nextReq (s : State) (f : EngineId → Engine → Engine) : (s.mapEng f).nextReq = s.nextReq := by rw [State.mapEng]
@[simp] theorem State.mapEng_stops (s : State) (f : EngineId → Engine → Engine) : (s.mapEng f).stops = s.stops := by rw [State.mapEng]
@[simp] theorem State.mapEng_stopNo (s : State) (f : EngineId → Engine → Engine) : (s.mapEng f).stopNo = s.stopNo := by rw [State.mapEng]
@[simp] theorem State.mapEng_reds (s : State) (f : EngineId → Engine → Engine) : (s.mapEng f).reds = s.reds := by rw [State.mapEng]
@[simp] theorem State.mapEng_fox (s : State) (f : EngineId → Engine → Engine) : (s.mapEng f).fox = s.fox := by rw [State.mapEng]
@[simp] theorem State.mapEng_skink (s : State) (f : EngineId → Engine → Engine) : (s.mapEng f).skink = s.skink := by rw [State.mapEng]
@[simp] theorem State.mapEng_mem (s : State) (f : EngineId → Engine → Engine) : (s.mapEng f).mem = s.mem := by rw [State.mapEng]
@[simp] theorem State.mapEng_cal (s : State) (f : EngineId → Engine → Engine) : (s.mapEng f).cal = s.cal := by rw [State.mapEng]
@[simp] theorem State.mapEng_ecc (s : State) (f : EngineId → Engine → Engine) : (s.mapEng f).ecc = s.ecc := by rw [State.mapEng]
@[simp] theorem State.mapEng_retired (s : State) (f : EngineId → Engine → Engine) : (s.mapEng f).retired = s.retired := by rw [State.mapEng]
@[simp] theorem State.mapEng_timNow (s : State) (f : EngineId → Engine → Engine) : (s.mapEng f).timNow = s.timNow := by rw [State.mapEng]
@[simp] theorem State.mapEng_fc (s : State) (f : EngineId → Engine → Engine) : (s.mapEng f).fc = s.fc := by rw [State.mapEng]
@[simp] theorem State.mapEng_helio (s : State) (f : EngineId → Engine → Engine) : (s.mapEng f).helio = s.helio := by rw [State.mapEng]
@[simp] theorem State.mapEng_coord (s : State) (f : EngineId → Engine → Engine) : (s.mapEng f).coord = s.coord := by rw [State.mapEng]
@[simp] theorem State.mapEng_lark (s : State) (f : EngineId → Engine → Engine) : (s.mapEng f).lark = s.lark := by rw [State.mapEng]
@[simp] theorem State.mapEng_objects (s : State) (f : EngineId → Engine → Engine) : (s.mapEng f).objects = s.objects := by rw [State.mapEng]
@[simp] theorem State.mapEng_sealKey (s : State) (f : EngineId → Engine → Engine) : (s.mapEng f).sealKey = s.sealKey := by rw [State.mapEng]
@[simp] theorem State.mapEng_mintWorld (s : State) (f : EngineId → Engine → Engine) : (s.mapEng f).mintWorld = s.mintWorld := by rw [State.mapEng]
@[simp] theorem State.mapEng_hslots (s : State) (f : EngineId → Engine → Engine) : (s.mapEng f).hslots = s.hslots := by rw [State.mapEng]
@[simp] theorem State.mapEng_chanMask (s : State) (f : EngineId → Engine → Engine) : (s.mapEng f).chanMask = s.chanMask := by rw [State.mapEng]
@[simp] theorem State.mapEng_mapStale (s : State) (f : EngineId → Engine → Engine) : (s.mapEng f).mapStale = s.mapStale := by rw [State.mapEng]
@[simp] theorem State.mapEng_pins (s : State) (f : EngineId → Engine → Engine) : (s.mapEng f).pins = s.pins := by rw [State.mapEng]
@[simp] theorem State.mapEng_liveTemp (s : State) (f : EngineId → Engine → Engine) : (s.mapEng f).liveTemp = s.liveTemp := by rw [State.mapEng]
@[simp] theorem State.mapEng_throttled (s : State) (f : EngineId → Engine → Engine) : (s.mapEng f).throttled = s.throttled := by rw [State.mapEng]
@[simp] theorem State.mapEng_supplyHold (s : State) (f : EngineId → Engine → Engine) : (s.mapEng f).supplyHold = s.supplyHold := by rw [State.mapEng]
@[simp] theorem State.mapEng_pcie (s : State) (f : EngineId → Engine → Engine) : (s.mapEng f).pcie = s.pcie := by rw [State.mapEng]
@[simp] theorem State.mapEng_tap (s : State) (f : EngineId → Engine → Engine) : (s.mapEng f).tap = s.tap := by rw [State.mapEng]
@[simp] theorem State.mapEng_i2cIndex (s : State) (f : EngineId → Engine → Engine) : (s.mapEng f).i2cIndex = s.i2cIndex := by rw [State.mapEng]
@[simp] theorem State.mapEng_i2cData (s : State) (f : EngineId → Engine → Engine) : (s.mapEng f).i2cData = s.i2cData := by rw [State.mapEng]
@[simp] theorem State.mapEng_resp (s : State) (f : EngineId → Engine → Engine) : (s.mapEng f).resp = s.resp := by rw [State.mapEng]
@[simp] theorem State.mapEng_freeCtr (s : State) (f : EngineId → Engine → Engine) : (s.mapEng f).freeCtr = s.freeCtr := by rw [State.mapEng]

/-! ## modDie -/

@[simp] theorem State.modDie_pending (s : State) (d : DieId) (f : Die → Die) : (s.modDie d f).pending = s.pending := rfl
@[simp] theorem State.modDie_engines (s : State) (d : DieId) (f : Die → Die) : (s.modDie d f).engines = s.engines := rfl
@[simp] theorem State.modDie_dma (s : State) (d : DieId) (f : Die → Die) : (s.modDie d f).dma = s.dma := rfl
@[simp] theorem State.modDie_lanes (s : State) (d : DieId) (f : Die → Die) : (s.modDie d f).lanes = s.lanes := rfl
@[simp] theorem State.modDie_groups (s : State) (d : DieId) (f : Die → Die) : (s.modDie d f).groups = s.groups := rfl
@[simp] theorem State.modDie_ports (s : State) (d : DieId) (f : Die → Die) : (s.modDie d f).ports = s.ports := rfl
@[simp] theorem State.modDie_chainReqs (s : State) (d : DieId) (f : Die → Die) : (s.modDie d f).chainReqs = s.chainReqs := rfl
@[simp] theorem State.modDie_beats (s : State) (d : DieId) (f : Die → Die) : (s.modDie d f).beats = s.beats := rfl
@[simp] theorem State.modDie_nextReq (s : State) (d : DieId) (f : Die → Die) : (s.modDie d f).nextReq = s.nextReq := rfl
@[simp] theorem State.modDie_stops (s : State) (d : DieId) (f : Die → Die) : (s.modDie d f).stops = s.stops := rfl
@[simp] theorem State.modDie_stopNo (s : State) (d : DieId) (f : Die → Die) : (s.modDie d f).stopNo = s.stopNo := rfl
@[simp] theorem State.modDie_reds (s : State) (d : DieId) (f : Die → Die) : (s.modDie d f).reds = s.reds := rfl
@[simp] theorem State.modDie_fox (s : State) (d : DieId) (f : Die → Die) : (s.modDie d f).fox = s.fox := rfl
@[simp] theorem State.modDie_skink (s : State) (d : DieId) (f : Die → Die) : (s.modDie d f).skink = s.skink := rfl
@[simp] theorem State.modDie_mem (s : State) (d : DieId) (f : Die → Die) : (s.modDie d f).mem = s.mem := rfl
@[simp] theorem State.modDie_cal (s : State) (d : DieId) (f : Die → Die) : (s.modDie d f).cal = s.cal := rfl
@[simp] theorem State.modDie_ecc (s : State) (d : DieId) (f : Die → Die) : (s.modDie d f).ecc = s.ecc := rfl
@[simp] theorem State.modDie_retired (s : State) (d : DieId) (f : Die → Die) : (s.modDie d f).retired = s.retired := rfl
@[simp] theorem State.modDie_timNow (s : State) (d : DieId) (f : Die → Die) : (s.modDie d f).timNow = s.timNow := rfl
@[simp] theorem State.modDie_fc (s : State) (d : DieId) (f : Die → Die) : (s.modDie d f).fc = s.fc := rfl
@[simp] theorem State.modDie_helio (s : State) (d : DieId) (f : Die → Die) : (s.modDie d f).helio = s.helio := rfl
@[simp] theorem State.modDie_coord (s : State) (d : DieId) (f : Die → Die) : (s.modDie d f).coord = s.coord := rfl
@[simp] theorem State.modDie_lark (s : State) (d : DieId) (f : Die → Die) : (s.modDie d f).lark = s.lark := rfl
@[simp] theorem State.modDie_objects (s : State) (d : DieId) (f : Die → Die) : (s.modDie d f).objects = s.objects := rfl
@[simp] theorem State.modDie_sealKey (s : State) (d : DieId) (f : Die → Die) : (s.modDie d f).sealKey = s.sealKey := rfl
@[simp] theorem State.modDie_mintWorld (s : State) (d : DieId) (f : Die → Die) : (s.modDie d f).mintWorld = s.mintWorld := rfl
@[simp] theorem State.modDie_hslots (s : State) (d : DieId) (f : Die → Die) : (s.modDie d f).hslots = s.hslots := rfl
@[simp] theorem State.modDie_chanMask (s : State) (d : DieId) (f : Die → Die) : (s.modDie d f).chanMask = s.chanMask := rfl
@[simp] theorem State.modDie_mapStale (s : State) (d : DieId) (f : Die → Die) : (s.modDie d f).mapStale = s.mapStale := rfl
@[simp] theorem State.modDie_pins (s : State) (d : DieId) (f : Die → Die) : (s.modDie d f).pins = s.pins := rfl
@[simp] theorem State.modDie_liveTemp (s : State) (d : DieId) (f : Die → Die) : (s.modDie d f).liveTemp = s.liveTemp := rfl
@[simp] theorem State.modDie_throttled (s : State) (d : DieId) (f : Die → Die) : (s.modDie d f).throttled = s.throttled := rfl
@[simp] theorem State.modDie_supplyHold (s : State) (d : DieId) (f : Die → Die) : (s.modDie d f).supplyHold = s.supplyHold := rfl
@[simp] theorem State.modDie_pcie (s : State) (d : DieId) (f : Die → Die) : (s.modDie d f).pcie = s.pcie := rfl
@[simp] theorem State.modDie_tap (s : State) (d : DieId) (f : Die → Die) : (s.modDie d f).tap = s.tap := rfl
@[simp] theorem State.modDie_i2cIndex (s : State) (d : DieId) (f : Die → Die) : (s.modDie d f).i2cIndex = s.i2cIndex := rfl
@[simp] theorem State.modDie_i2cData (s : State) (d : DieId) (f : Die → Die) : (s.modDie d f).i2cData = s.i2cData := rfl
@[simp] theorem State.modDie_resp (s : State) (d : DieId) (f : Die → Die) : (s.modDie d f).resp = s.resp := rfl
@[simp] theorem State.modDie_freeCtr (s : State) (d : DieId) (f : Die → Die) : (s.modDie d f).freeCtr = s.freeCtr := rfl

/-! ## modDma -/

@[simp] theorem State.modDma_pending (s : State) (c : ChanId) (f : Dma → Dma) : (s.modDma c f).pending = s.pending := rfl
@[simp] theorem State.modDma_engines (s : State) (c : ChanId) (f : Dma → Dma) : (s.modDma c f).engines = s.engines := rfl
@[simp] theorem State.modDma_dies (s : State) (c : ChanId) (f : Dma → Dma) : (s.modDma c f).dies = s.dies := rfl
@[simp] theorem State.modDma_lanes (s : State) (c : ChanId) (f : Dma → Dma) : (s.modDma c f).lanes = s.lanes := rfl
@[simp] theorem State.modDma_groups (s : State) (c : ChanId) (f : Dma → Dma) : (s.modDma c f).groups = s.groups := rfl
@[simp] theorem State.modDma_ports (s : State) (c : ChanId) (f : Dma → Dma) : (s.modDma c f).ports = s.ports := rfl
@[simp] theorem State.modDma_chainReqs (s : State) (c : ChanId) (f : Dma → Dma) : (s.modDma c f).chainReqs = s.chainReqs := rfl
@[simp] theorem State.modDma_beats (s : State) (c : ChanId) (f : Dma → Dma) : (s.modDma c f).beats = s.beats := rfl
@[simp] theorem State.modDma_nextReq (s : State) (c : ChanId) (f : Dma → Dma) : (s.modDma c f).nextReq = s.nextReq := rfl
@[simp] theorem State.modDma_stops (s : State) (c : ChanId) (f : Dma → Dma) : (s.modDma c f).stops = s.stops := rfl
@[simp] theorem State.modDma_stopNo (s : State) (c : ChanId) (f : Dma → Dma) : (s.modDma c f).stopNo = s.stopNo := rfl
@[simp] theorem State.modDma_reds (s : State) (c : ChanId) (f : Dma → Dma) : (s.modDma c f).reds = s.reds := rfl
@[simp] theorem State.modDma_fox (s : State) (c : ChanId) (f : Dma → Dma) : (s.modDma c f).fox = s.fox := rfl
@[simp] theorem State.modDma_skink (s : State) (c : ChanId) (f : Dma → Dma) : (s.modDma c f).skink = s.skink := rfl
@[simp] theorem State.modDma_mem (s : State) (c : ChanId) (f : Dma → Dma) : (s.modDma c f).mem = s.mem := rfl
@[simp] theorem State.modDma_cal (s : State) (c : ChanId) (f : Dma → Dma) : (s.modDma c f).cal = s.cal := rfl
@[simp] theorem State.modDma_ecc (s : State) (c : ChanId) (f : Dma → Dma) : (s.modDma c f).ecc = s.ecc := rfl
@[simp] theorem State.modDma_retired (s : State) (c : ChanId) (f : Dma → Dma) : (s.modDma c f).retired = s.retired := rfl
@[simp] theorem State.modDma_timNow (s : State) (c : ChanId) (f : Dma → Dma) : (s.modDma c f).timNow = s.timNow := rfl
@[simp] theorem State.modDma_fc (s : State) (c : ChanId) (f : Dma → Dma) : (s.modDma c f).fc = s.fc := rfl
@[simp] theorem State.modDma_helio (s : State) (c : ChanId) (f : Dma → Dma) : (s.modDma c f).helio = s.helio := rfl
@[simp] theorem State.modDma_coord (s : State) (c : ChanId) (f : Dma → Dma) : (s.modDma c f).coord = s.coord := rfl
@[simp] theorem State.modDma_lark (s : State) (c : ChanId) (f : Dma → Dma) : (s.modDma c f).lark = s.lark := rfl
@[simp] theorem State.modDma_objects (s : State) (c : ChanId) (f : Dma → Dma) : (s.modDma c f).objects = s.objects := rfl
@[simp] theorem State.modDma_sealKey (s : State) (c : ChanId) (f : Dma → Dma) : (s.modDma c f).sealKey = s.sealKey := rfl
@[simp] theorem State.modDma_mintWorld (s : State) (c : ChanId) (f : Dma → Dma) : (s.modDma c f).mintWorld = s.mintWorld := rfl
@[simp] theorem State.modDma_hslots (s : State) (c : ChanId) (f : Dma → Dma) : (s.modDma c f).hslots = s.hslots := rfl
@[simp] theorem State.modDma_chanMask (s : State) (c : ChanId) (f : Dma → Dma) : (s.modDma c f).chanMask = s.chanMask := rfl
@[simp] theorem State.modDma_mapStale (s : State) (c : ChanId) (f : Dma → Dma) : (s.modDma c f).mapStale = s.mapStale := rfl
@[simp] theorem State.modDma_pins (s : State) (c : ChanId) (f : Dma → Dma) : (s.modDma c f).pins = s.pins := rfl
@[simp] theorem State.modDma_liveTemp (s : State) (c : ChanId) (f : Dma → Dma) : (s.modDma c f).liveTemp = s.liveTemp := rfl
@[simp] theorem State.modDma_throttled (s : State) (c : ChanId) (f : Dma → Dma) : (s.modDma c f).throttled = s.throttled := rfl
@[simp] theorem State.modDma_supplyHold (s : State) (c : ChanId) (f : Dma → Dma) : (s.modDma c f).supplyHold = s.supplyHold := rfl
@[simp] theorem State.modDma_pcie (s : State) (c : ChanId) (f : Dma → Dma) : (s.modDma c f).pcie = s.pcie := rfl
@[simp] theorem State.modDma_tap (s : State) (c : ChanId) (f : Dma → Dma) : (s.modDma c f).tap = s.tap := rfl
@[simp] theorem State.modDma_i2cIndex (s : State) (c : ChanId) (f : Dma → Dma) : (s.modDma c f).i2cIndex = s.i2cIndex := rfl
@[simp] theorem State.modDma_i2cData (s : State) (c : ChanId) (f : Dma → Dma) : (s.modDma c f).i2cData = s.i2cData := rfl
@[simp] theorem State.modDma_resp (s : State) (c : ChanId) (f : Dma → Dma) : (s.modDma c f).resp = s.resp := rfl
@[simp] theorem State.modDma_freeCtr (s : State) (c : ChanId) (f : Dma → Dma) : (s.modDma c f).freeCtr = s.freeCtr := rfl

/-! ## modLane -/

@[simp] theorem State.modLane_pending (s : State) (l : LaneId) (f : Lane → Lane) : (s.modLane l f).pending = s.pending := rfl
@[simp] theorem State.modLane_engines (s : State) (l : LaneId) (f : Lane → Lane) : (s.modLane l f).engines = s.engines := rfl
@[simp] theorem State.modLane_dies (s : State) (l : LaneId) (f : Lane → Lane) : (s.modLane l f).dies = s.dies := rfl
@[simp] theorem State.modLane_dma (s : State) (l : LaneId) (f : Lane → Lane) : (s.modLane l f).dma = s.dma := rfl
@[simp] theorem State.modLane_groups (s : State) (l : LaneId) (f : Lane → Lane) : (s.modLane l f).groups = s.groups := rfl
@[simp] theorem State.modLane_ports (s : State) (l : LaneId) (f : Lane → Lane) : (s.modLane l f).ports = s.ports := rfl
@[simp] theorem State.modLane_chainReqs (s : State) (l : LaneId) (f : Lane → Lane) : (s.modLane l f).chainReqs = s.chainReqs := rfl
@[simp] theorem State.modLane_beats (s : State) (l : LaneId) (f : Lane → Lane) : (s.modLane l f).beats = s.beats := rfl
@[simp] theorem State.modLane_nextReq (s : State) (l : LaneId) (f : Lane → Lane) : (s.modLane l f).nextReq = s.nextReq := rfl
@[simp] theorem State.modLane_stops (s : State) (l : LaneId) (f : Lane → Lane) : (s.modLane l f).stops = s.stops := rfl
@[simp] theorem State.modLane_stopNo (s : State) (l : LaneId) (f : Lane → Lane) : (s.modLane l f).stopNo = s.stopNo := rfl
@[simp] theorem State.modLane_reds (s : State) (l : LaneId) (f : Lane → Lane) : (s.modLane l f).reds = s.reds := rfl
@[simp] theorem State.modLane_fox (s : State) (l : LaneId) (f : Lane → Lane) : (s.modLane l f).fox = s.fox := rfl
@[simp] theorem State.modLane_skink (s : State) (l : LaneId) (f : Lane → Lane) : (s.modLane l f).skink = s.skink := rfl
@[simp] theorem State.modLane_mem (s : State) (l : LaneId) (f : Lane → Lane) : (s.modLane l f).mem = s.mem := rfl
@[simp] theorem State.modLane_cal (s : State) (l : LaneId) (f : Lane → Lane) : (s.modLane l f).cal = s.cal := rfl
@[simp] theorem State.modLane_ecc (s : State) (l : LaneId) (f : Lane → Lane) : (s.modLane l f).ecc = s.ecc := rfl
@[simp] theorem State.modLane_retired (s : State) (l : LaneId) (f : Lane → Lane) : (s.modLane l f).retired = s.retired := rfl
@[simp] theorem State.modLane_timNow (s : State) (l : LaneId) (f : Lane → Lane) : (s.modLane l f).timNow = s.timNow := rfl
@[simp] theorem State.modLane_fc (s : State) (l : LaneId) (f : Lane → Lane) : (s.modLane l f).fc = s.fc := rfl
@[simp] theorem State.modLane_helio (s : State) (l : LaneId) (f : Lane → Lane) : (s.modLane l f).helio = s.helio := rfl
@[simp] theorem State.modLane_coord (s : State) (l : LaneId) (f : Lane → Lane) : (s.modLane l f).coord = s.coord := rfl
@[simp] theorem State.modLane_lark (s : State) (l : LaneId) (f : Lane → Lane) : (s.modLane l f).lark = s.lark := rfl
@[simp] theorem State.modLane_objects (s : State) (l : LaneId) (f : Lane → Lane) : (s.modLane l f).objects = s.objects := rfl
@[simp] theorem State.modLane_sealKey (s : State) (l : LaneId) (f : Lane → Lane) : (s.modLane l f).sealKey = s.sealKey := rfl
@[simp] theorem State.modLane_mintWorld (s : State) (l : LaneId) (f : Lane → Lane) : (s.modLane l f).mintWorld = s.mintWorld := rfl
@[simp] theorem State.modLane_hslots (s : State) (l : LaneId) (f : Lane → Lane) : (s.modLane l f).hslots = s.hslots := rfl
@[simp] theorem State.modLane_chanMask (s : State) (l : LaneId) (f : Lane → Lane) : (s.modLane l f).chanMask = s.chanMask := rfl
@[simp] theorem State.modLane_mapStale (s : State) (l : LaneId) (f : Lane → Lane) : (s.modLane l f).mapStale = s.mapStale := rfl
@[simp] theorem State.modLane_pins (s : State) (l : LaneId) (f : Lane → Lane) : (s.modLane l f).pins = s.pins := rfl
@[simp] theorem State.modLane_liveTemp (s : State) (l : LaneId) (f : Lane → Lane) : (s.modLane l f).liveTemp = s.liveTemp := rfl
@[simp] theorem State.modLane_throttled (s : State) (l : LaneId) (f : Lane → Lane) : (s.modLane l f).throttled = s.throttled := rfl
@[simp] theorem State.modLane_supplyHold (s : State) (l : LaneId) (f : Lane → Lane) : (s.modLane l f).supplyHold = s.supplyHold := rfl
@[simp] theorem State.modLane_pcie (s : State) (l : LaneId) (f : Lane → Lane) : (s.modLane l f).pcie = s.pcie := rfl
@[simp] theorem State.modLane_tap (s : State) (l : LaneId) (f : Lane → Lane) : (s.modLane l f).tap = s.tap := rfl
@[simp] theorem State.modLane_i2cIndex (s : State) (l : LaneId) (f : Lane → Lane) : (s.modLane l f).i2cIndex = s.i2cIndex := rfl
@[simp] theorem State.modLane_i2cData (s : State) (l : LaneId) (f : Lane → Lane) : (s.modLane l f).i2cData = s.i2cData := rfl
@[simp] theorem State.modLane_resp (s : State) (l : LaneId) (f : Lane → Lane) : (s.modLane l f).resp = s.resp := rfl
@[simp] theorem State.modLane_freeCtr (s : State) (l : LaneId) (f : Lane → Lane) : (s.modLane l f).freeCtr = s.freeCtr := rfl

/-! ## modPort -/

@[simp] theorem State.modPort_pending (s : State) (p : PortId) (f : ChainPort → ChainPort) : (s.modPort p f).pending = s.pending := rfl
@[simp] theorem State.modPort_engines (s : State) (p : PortId) (f : ChainPort → ChainPort) : (s.modPort p f).engines = s.engines := rfl
@[simp] theorem State.modPort_dies (s : State) (p : PortId) (f : ChainPort → ChainPort) : (s.modPort p f).dies = s.dies := rfl
@[simp] theorem State.modPort_dma (s : State) (p : PortId) (f : ChainPort → ChainPort) : (s.modPort p f).dma = s.dma := rfl
@[simp] theorem State.modPort_lanes (s : State) (p : PortId) (f : ChainPort → ChainPort) : (s.modPort p f).lanes = s.lanes := rfl
@[simp] theorem State.modPort_groups (s : State) (p : PortId) (f : ChainPort → ChainPort) : (s.modPort p f).groups = s.groups := rfl
@[simp] theorem State.modPort_chainReqs (s : State) (p : PortId) (f : ChainPort → ChainPort) : (s.modPort p f).chainReqs = s.chainReqs := rfl
@[simp] theorem State.modPort_beats (s : State) (p : PortId) (f : ChainPort → ChainPort) : (s.modPort p f).beats = s.beats := rfl
@[simp] theorem State.modPort_nextReq (s : State) (p : PortId) (f : ChainPort → ChainPort) : (s.modPort p f).nextReq = s.nextReq := rfl
@[simp] theorem State.modPort_stops (s : State) (p : PortId) (f : ChainPort → ChainPort) : (s.modPort p f).stops = s.stops := rfl
@[simp] theorem State.modPort_stopNo (s : State) (p : PortId) (f : ChainPort → ChainPort) : (s.modPort p f).stopNo = s.stopNo := rfl
@[simp] theorem State.modPort_reds (s : State) (p : PortId) (f : ChainPort → ChainPort) : (s.modPort p f).reds = s.reds := rfl
@[simp] theorem State.modPort_fox (s : State) (p : PortId) (f : ChainPort → ChainPort) : (s.modPort p f).fox = s.fox := rfl
@[simp] theorem State.modPort_skink (s : State) (p : PortId) (f : ChainPort → ChainPort) : (s.modPort p f).skink = s.skink := rfl
@[simp] theorem State.modPort_mem (s : State) (p : PortId) (f : ChainPort → ChainPort) : (s.modPort p f).mem = s.mem := rfl
@[simp] theorem State.modPort_cal (s : State) (p : PortId) (f : ChainPort → ChainPort) : (s.modPort p f).cal = s.cal := rfl
@[simp] theorem State.modPort_ecc (s : State) (p : PortId) (f : ChainPort → ChainPort) : (s.modPort p f).ecc = s.ecc := rfl
@[simp] theorem State.modPort_retired (s : State) (p : PortId) (f : ChainPort → ChainPort) : (s.modPort p f).retired = s.retired := rfl
@[simp] theorem State.modPort_timNow (s : State) (p : PortId) (f : ChainPort → ChainPort) : (s.modPort p f).timNow = s.timNow := rfl
@[simp] theorem State.modPort_fc (s : State) (p : PortId) (f : ChainPort → ChainPort) : (s.modPort p f).fc = s.fc := rfl
@[simp] theorem State.modPort_helio (s : State) (p : PortId) (f : ChainPort → ChainPort) : (s.modPort p f).helio = s.helio := rfl
@[simp] theorem State.modPort_coord (s : State) (p : PortId) (f : ChainPort → ChainPort) : (s.modPort p f).coord = s.coord := rfl
@[simp] theorem State.modPort_lark (s : State) (p : PortId) (f : ChainPort → ChainPort) : (s.modPort p f).lark = s.lark := rfl
@[simp] theorem State.modPort_objects (s : State) (p : PortId) (f : ChainPort → ChainPort) : (s.modPort p f).objects = s.objects := rfl
@[simp] theorem State.modPort_sealKey (s : State) (p : PortId) (f : ChainPort → ChainPort) : (s.modPort p f).sealKey = s.sealKey := rfl
@[simp] theorem State.modPort_mintWorld (s : State) (p : PortId) (f : ChainPort → ChainPort) : (s.modPort p f).mintWorld = s.mintWorld := rfl
@[simp] theorem State.modPort_hslots (s : State) (p : PortId) (f : ChainPort → ChainPort) : (s.modPort p f).hslots = s.hslots := rfl
@[simp] theorem State.modPort_chanMask (s : State) (p : PortId) (f : ChainPort → ChainPort) : (s.modPort p f).chanMask = s.chanMask := rfl
@[simp] theorem State.modPort_mapStale (s : State) (p : PortId) (f : ChainPort → ChainPort) : (s.modPort p f).mapStale = s.mapStale := rfl
@[simp] theorem State.modPort_pins (s : State) (p : PortId) (f : ChainPort → ChainPort) : (s.modPort p f).pins = s.pins := rfl
@[simp] theorem State.modPort_liveTemp (s : State) (p : PortId) (f : ChainPort → ChainPort) : (s.modPort p f).liveTemp = s.liveTemp := rfl
@[simp] theorem State.modPort_throttled (s : State) (p : PortId) (f : ChainPort → ChainPort) : (s.modPort p f).throttled = s.throttled := rfl
@[simp] theorem State.modPort_supplyHold (s : State) (p : PortId) (f : ChainPort → ChainPort) : (s.modPort p f).supplyHold = s.supplyHold := rfl
@[simp] theorem State.modPort_pcie (s : State) (p : PortId) (f : ChainPort → ChainPort) : (s.modPort p f).pcie = s.pcie := rfl
@[simp] theorem State.modPort_tap (s : State) (p : PortId) (f : ChainPort → ChainPort) : (s.modPort p f).tap = s.tap := rfl
@[simp] theorem State.modPort_i2cIndex (s : State) (p : PortId) (f : ChainPort → ChainPort) : (s.modPort p f).i2cIndex = s.i2cIndex := rfl
@[simp] theorem State.modPort_i2cData (s : State) (p : PortId) (f : ChainPort → ChainPort) : (s.modPort p f).i2cData = s.i2cData := rfl
@[simp] theorem State.modPort_resp (s : State) (p : PortId) (f : ChainPort → ChainPort) : (s.modPort p f).resp = s.resp := rfl
@[simp] theorem State.modPort_freeCtr (s : State) (p : PortId) (f : ChainPort → ChainPort) : (s.modPort p f).freeCtr = s.freeCtr := rfl

/-! ## modRed -/

@[simp] theorem State.modRed_pending (s : State) (c : RedId) (f : Red → Red) : (s.modRed c f).pending = s.pending := rfl
@[simp] theorem State.modRed_engines (s : State) (c : RedId) (f : Red → Red) : (s.modRed c f).engines = s.engines := rfl
@[simp] theorem State.modRed_dies (s : State) (c : RedId) (f : Red → Red) : (s.modRed c f).dies = s.dies := rfl
@[simp] theorem State.modRed_dma (s : State) (c : RedId) (f : Red → Red) : (s.modRed c f).dma = s.dma := rfl
@[simp] theorem State.modRed_lanes (s : State) (c : RedId) (f : Red → Red) : (s.modRed c f).lanes = s.lanes := rfl
@[simp] theorem State.modRed_groups (s : State) (c : RedId) (f : Red → Red) : (s.modRed c f).groups = s.groups := rfl
@[simp] theorem State.modRed_ports (s : State) (c : RedId) (f : Red → Red) : (s.modRed c f).ports = s.ports := rfl
@[simp] theorem State.modRed_chainReqs (s : State) (c : RedId) (f : Red → Red) : (s.modRed c f).chainReqs = s.chainReqs := rfl
@[simp] theorem State.modRed_beats (s : State) (c : RedId) (f : Red → Red) : (s.modRed c f).beats = s.beats := rfl
@[simp] theorem State.modRed_nextReq (s : State) (c : RedId) (f : Red → Red) : (s.modRed c f).nextReq = s.nextReq := rfl
@[simp] theorem State.modRed_stops (s : State) (c : RedId) (f : Red → Red) : (s.modRed c f).stops = s.stops := rfl
@[simp] theorem State.modRed_stopNo (s : State) (c : RedId) (f : Red → Red) : (s.modRed c f).stopNo = s.stopNo := rfl
@[simp] theorem State.modRed_fox (s : State) (c : RedId) (f : Red → Red) : (s.modRed c f).fox = s.fox := rfl
@[simp] theorem State.modRed_skink (s : State) (c : RedId) (f : Red → Red) : (s.modRed c f).skink = s.skink := rfl
@[simp] theorem State.modRed_mem (s : State) (c : RedId) (f : Red → Red) : (s.modRed c f).mem = s.mem := rfl
@[simp] theorem State.modRed_cal (s : State) (c : RedId) (f : Red → Red) : (s.modRed c f).cal = s.cal := rfl
@[simp] theorem State.modRed_ecc (s : State) (c : RedId) (f : Red → Red) : (s.modRed c f).ecc = s.ecc := rfl
@[simp] theorem State.modRed_retired (s : State) (c : RedId) (f : Red → Red) : (s.modRed c f).retired = s.retired := rfl
@[simp] theorem State.modRed_timNow (s : State) (c : RedId) (f : Red → Red) : (s.modRed c f).timNow = s.timNow := rfl
@[simp] theorem State.modRed_fc (s : State) (c : RedId) (f : Red → Red) : (s.modRed c f).fc = s.fc := rfl
@[simp] theorem State.modRed_helio (s : State) (c : RedId) (f : Red → Red) : (s.modRed c f).helio = s.helio := rfl
@[simp] theorem State.modRed_coord (s : State) (c : RedId) (f : Red → Red) : (s.modRed c f).coord = s.coord := rfl
@[simp] theorem State.modRed_lark (s : State) (c : RedId) (f : Red → Red) : (s.modRed c f).lark = s.lark := rfl
@[simp] theorem State.modRed_objects (s : State) (c : RedId) (f : Red → Red) : (s.modRed c f).objects = s.objects := rfl
@[simp] theorem State.modRed_sealKey (s : State) (c : RedId) (f : Red → Red) : (s.modRed c f).sealKey = s.sealKey := rfl
@[simp] theorem State.modRed_mintWorld (s : State) (c : RedId) (f : Red → Red) : (s.modRed c f).mintWorld = s.mintWorld := rfl
@[simp] theorem State.modRed_hslots (s : State) (c : RedId) (f : Red → Red) : (s.modRed c f).hslots = s.hslots := rfl
@[simp] theorem State.modRed_chanMask (s : State) (c : RedId) (f : Red → Red) : (s.modRed c f).chanMask = s.chanMask := rfl
@[simp] theorem State.modRed_mapStale (s : State) (c : RedId) (f : Red → Red) : (s.modRed c f).mapStale = s.mapStale := rfl
@[simp] theorem State.modRed_pins (s : State) (c : RedId) (f : Red → Red) : (s.modRed c f).pins = s.pins := rfl
@[simp] theorem State.modRed_liveTemp (s : State) (c : RedId) (f : Red → Red) : (s.modRed c f).liveTemp = s.liveTemp := rfl
@[simp] theorem State.modRed_throttled (s : State) (c : RedId) (f : Red → Red) : (s.modRed c f).throttled = s.throttled := rfl
@[simp] theorem State.modRed_supplyHold (s : State) (c : RedId) (f : Red → Red) : (s.modRed c f).supplyHold = s.supplyHold := rfl
@[simp] theorem State.modRed_pcie (s : State) (c : RedId) (f : Red → Red) : (s.modRed c f).pcie = s.pcie := rfl
@[simp] theorem State.modRed_tap (s : State) (c : RedId) (f : Red → Red) : (s.modRed c f).tap = s.tap := rfl
@[simp] theorem State.modRed_i2cIndex (s : State) (c : RedId) (f : Red → Red) : (s.modRed c f).i2cIndex = s.i2cIndex := rfl
@[simp] theorem State.modRed_i2cData (s : State) (c : RedId) (f : Red → Red) : (s.modRed c f).i2cData = s.i2cData := rfl
@[simp] theorem State.modRed_resp (s : State) (c : RedId) (f : Red → Red) : (s.modRed c f).resp = s.resp := rfl
@[simp] theorem State.modRed_freeCtr (s : State) (c : RedId) (f : Red → Red) : (s.modRed c f).freeCtr = s.freeCtr := rfl

/-! ## modFox -/

@[simp] theorem State.modFox_pending (s : State) (g : GeckoId) (f : Fox → Fox) : (s.modFox g f).pending = s.pending := rfl
@[simp] theorem State.modFox_engines (s : State) (g : GeckoId) (f : Fox → Fox) : (s.modFox g f).engines = s.engines := rfl
@[simp] theorem State.modFox_dies (s : State) (g : GeckoId) (f : Fox → Fox) : (s.modFox g f).dies = s.dies := rfl
@[simp] theorem State.modFox_dma (s : State) (g : GeckoId) (f : Fox → Fox) : (s.modFox g f).dma = s.dma := rfl
@[simp] theorem State.modFox_lanes (s : State) (g : GeckoId) (f : Fox → Fox) : (s.modFox g f).lanes = s.lanes := rfl
@[simp] theorem State.modFox_groups (s : State) (g : GeckoId) (f : Fox → Fox) : (s.modFox g f).groups = s.groups := rfl
@[simp] theorem State.modFox_ports (s : State) (g : GeckoId) (f : Fox → Fox) : (s.modFox g f).ports = s.ports := rfl
@[simp] theorem State.modFox_chainReqs (s : State) (g : GeckoId) (f : Fox → Fox) : (s.modFox g f).chainReqs = s.chainReqs := rfl
@[simp] theorem State.modFox_beats (s : State) (g : GeckoId) (f : Fox → Fox) : (s.modFox g f).beats = s.beats := rfl
@[simp] theorem State.modFox_nextReq (s : State) (g : GeckoId) (f : Fox → Fox) : (s.modFox g f).nextReq = s.nextReq := rfl
@[simp] theorem State.modFox_stops (s : State) (g : GeckoId) (f : Fox → Fox) : (s.modFox g f).stops = s.stops := rfl
@[simp] theorem State.modFox_stopNo (s : State) (g : GeckoId) (f : Fox → Fox) : (s.modFox g f).stopNo = s.stopNo := rfl
@[simp] theorem State.modFox_reds (s : State) (g : GeckoId) (f : Fox → Fox) : (s.modFox g f).reds = s.reds := rfl
@[simp] theorem State.modFox_skink (s : State) (g : GeckoId) (f : Fox → Fox) : (s.modFox g f).skink = s.skink := rfl
@[simp] theorem State.modFox_mem (s : State) (g : GeckoId) (f : Fox → Fox) : (s.modFox g f).mem = s.mem := rfl
@[simp] theorem State.modFox_cal (s : State) (g : GeckoId) (f : Fox → Fox) : (s.modFox g f).cal = s.cal := rfl
@[simp] theorem State.modFox_ecc (s : State) (g : GeckoId) (f : Fox → Fox) : (s.modFox g f).ecc = s.ecc := rfl
@[simp] theorem State.modFox_retired (s : State) (g : GeckoId) (f : Fox → Fox) : (s.modFox g f).retired = s.retired := rfl
@[simp] theorem State.modFox_timNow (s : State) (g : GeckoId) (f : Fox → Fox) : (s.modFox g f).timNow = s.timNow := rfl
@[simp] theorem State.modFox_fc (s : State) (g : GeckoId) (f : Fox → Fox) : (s.modFox g f).fc = s.fc := rfl
@[simp] theorem State.modFox_helio (s : State) (g : GeckoId) (f : Fox → Fox) : (s.modFox g f).helio = s.helio := rfl
@[simp] theorem State.modFox_coord (s : State) (g : GeckoId) (f : Fox → Fox) : (s.modFox g f).coord = s.coord := rfl
@[simp] theorem State.modFox_lark (s : State) (g : GeckoId) (f : Fox → Fox) : (s.modFox g f).lark = s.lark := rfl
@[simp] theorem State.modFox_objects (s : State) (g : GeckoId) (f : Fox → Fox) : (s.modFox g f).objects = s.objects := rfl
@[simp] theorem State.modFox_sealKey (s : State) (g : GeckoId) (f : Fox → Fox) : (s.modFox g f).sealKey = s.sealKey := rfl
@[simp] theorem State.modFox_mintWorld (s : State) (g : GeckoId) (f : Fox → Fox) : (s.modFox g f).mintWorld = s.mintWorld := rfl
@[simp] theorem State.modFox_hslots (s : State) (g : GeckoId) (f : Fox → Fox) : (s.modFox g f).hslots = s.hslots := rfl
@[simp] theorem State.modFox_chanMask (s : State) (g : GeckoId) (f : Fox → Fox) : (s.modFox g f).chanMask = s.chanMask := rfl
@[simp] theorem State.modFox_mapStale (s : State) (g : GeckoId) (f : Fox → Fox) : (s.modFox g f).mapStale = s.mapStale := rfl
@[simp] theorem State.modFox_pins (s : State) (g : GeckoId) (f : Fox → Fox) : (s.modFox g f).pins = s.pins := rfl
@[simp] theorem State.modFox_liveTemp (s : State) (g : GeckoId) (f : Fox → Fox) : (s.modFox g f).liveTemp = s.liveTemp := rfl
@[simp] theorem State.modFox_throttled (s : State) (g : GeckoId) (f : Fox → Fox) : (s.modFox g f).throttled = s.throttled := rfl
@[simp] theorem State.modFox_supplyHold (s : State) (g : GeckoId) (f : Fox → Fox) : (s.modFox g f).supplyHold = s.supplyHold := rfl
@[simp] theorem State.modFox_pcie (s : State) (g : GeckoId) (f : Fox → Fox) : (s.modFox g f).pcie = s.pcie := rfl
@[simp] theorem State.modFox_tap (s : State) (g : GeckoId) (f : Fox → Fox) : (s.modFox g f).tap = s.tap := rfl
@[simp] theorem State.modFox_i2cIndex (s : State) (g : GeckoId) (f : Fox → Fox) : (s.modFox g f).i2cIndex = s.i2cIndex := rfl
@[simp] theorem State.modFox_i2cData (s : State) (g : GeckoId) (f : Fox → Fox) : (s.modFox g f).i2cData = s.i2cData := rfl
@[simp] theorem State.modFox_resp (s : State) (g : GeckoId) (f : Fox → Fox) : (s.modFox g f).resp = s.resp := rfl
@[simp] theorem State.modFox_freeCtr (s : State) (g : GeckoId) (f : Fox → Fox) : (s.modFox g f).freeCtr = s.freeCtr := rfl

/-! ## modSkink -/

@[simp] theorem State.modSkink_pending (s : State) (g : GeckoId) (f : Skink → Skink) : (s.modSkink g f).pending = s.pending := rfl
@[simp] theorem State.modSkink_engines (s : State) (g : GeckoId) (f : Skink → Skink) : (s.modSkink g f).engines = s.engines := rfl
@[simp] theorem State.modSkink_dies (s : State) (g : GeckoId) (f : Skink → Skink) : (s.modSkink g f).dies = s.dies := rfl
@[simp] theorem State.modSkink_dma (s : State) (g : GeckoId) (f : Skink → Skink) : (s.modSkink g f).dma = s.dma := rfl
@[simp] theorem State.modSkink_lanes (s : State) (g : GeckoId) (f : Skink → Skink) : (s.modSkink g f).lanes = s.lanes := rfl
@[simp] theorem State.modSkink_groups (s : State) (g : GeckoId) (f : Skink → Skink) : (s.modSkink g f).groups = s.groups := rfl
@[simp] theorem State.modSkink_ports (s : State) (g : GeckoId) (f : Skink → Skink) : (s.modSkink g f).ports = s.ports := rfl
@[simp] theorem State.modSkink_chainReqs (s : State) (g : GeckoId) (f : Skink → Skink) : (s.modSkink g f).chainReqs = s.chainReqs := rfl
@[simp] theorem State.modSkink_beats (s : State) (g : GeckoId) (f : Skink → Skink) : (s.modSkink g f).beats = s.beats := rfl
@[simp] theorem State.modSkink_nextReq (s : State) (g : GeckoId) (f : Skink → Skink) : (s.modSkink g f).nextReq = s.nextReq := rfl
@[simp] theorem State.modSkink_stops (s : State) (g : GeckoId) (f : Skink → Skink) : (s.modSkink g f).stops = s.stops := rfl
@[simp] theorem State.modSkink_stopNo (s : State) (g : GeckoId) (f : Skink → Skink) : (s.modSkink g f).stopNo = s.stopNo := rfl
@[simp] theorem State.modSkink_reds (s : State) (g : GeckoId) (f : Skink → Skink) : (s.modSkink g f).reds = s.reds := rfl
@[simp] theorem State.modSkink_fox (s : State) (g : GeckoId) (f : Skink → Skink) : (s.modSkink g f).fox = s.fox := rfl
@[simp] theorem State.modSkink_mem (s : State) (g : GeckoId) (f : Skink → Skink) : (s.modSkink g f).mem = s.mem := rfl
@[simp] theorem State.modSkink_cal (s : State) (g : GeckoId) (f : Skink → Skink) : (s.modSkink g f).cal = s.cal := rfl
@[simp] theorem State.modSkink_ecc (s : State) (g : GeckoId) (f : Skink → Skink) : (s.modSkink g f).ecc = s.ecc := rfl
@[simp] theorem State.modSkink_retired (s : State) (g : GeckoId) (f : Skink → Skink) : (s.modSkink g f).retired = s.retired := rfl
@[simp] theorem State.modSkink_timNow (s : State) (g : GeckoId) (f : Skink → Skink) : (s.modSkink g f).timNow = s.timNow := rfl
@[simp] theorem State.modSkink_fc (s : State) (g : GeckoId) (f : Skink → Skink) : (s.modSkink g f).fc = s.fc := rfl
@[simp] theorem State.modSkink_helio (s : State) (g : GeckoId) (f : Skink → Skink) : (s.modSkink g f).helio = s.helio := rfl
@[simp] theorem State.modSkink_coord (s : State) (g : GeckoId) (f : Skink → Skink) : (s.modSkink g f).coord = s.coord := rfl
@[simp] theorem State.modSkink_lark (s : State) (g : GeckoId) (f : Skink → Skink) : (s.modSkink g f).lark = s.lark := rfl
@[simp] theorem State.modSkink_objects (s : State) (g : GeckoId) (f : Skink → Skink) : (s.modSkink g f).objects = s.objects := rfl
@[simp] theorem State.modSkink_sealKey (s : State) (g : GeckoId) (f : Skink → Skink) : (s.modSkink g f).sealKey = s.sealKey := rfl
@[simp] theorem State.modSkink_mintWorld (s : State) (g : GeckoId) (f : Skink → Skink) : (s.modSkink g f).mintWorld = s.mintWorld := rfl
@[simp] theorem State.modSkink_hslots (s : State) (g : GeckoId) (f : Skink → Skink) : (s.modSkink g f).hslots = s.hslots := rfl
@[simp] theorem State.modSkink_chanMask (s : State) (g : GeckoId) (f : Skink → Skink) : (s.modSkink g f).chanMask = s.chanMask := rfl
@[simp] theorem State.modSkink_mapStale (s : State) (g : GeckoId) (f : Skink → Skink) : (s.modSkink g f).mapStale = s.mapStale := rfl
@[simp] theorem State.modSkink_pins (s : State) (g : GeckoId) (f : Skink → Skink) : (s.modSkink g f).pins = s.pins := rfl
@[simp] theorem State.modSkink_liveTemp (s : State) (g : GeckoId) (f : Skink → Skink) : (s.modSkink g f).liveTemp = s.liveTemp := rfl
@[simp] theorem State.modSkink_throttled (s : State) (g : GeckoId) (f : Skink → Skink) : (s.modSkink g f).throttled = s.throttled := rfl
@[simp] theorem State.modSkink_supplyHold (s : State) (g : GeckoId) (f : Skink → Skink) : (s.modSkink g f).supplyHold = s.supplyHold := rfl
@[simp] theorem State.modSkink_pcie (s : State) (g : GeckoId) (f : Skink → Skink) : (s.modSkink g f).pcie = s.pcie := rfl
@[simp] theorem State.modSkink_tap (s : State) (g : GeckoId) (f : Skink → Skink) : (s.modSkink g f).tap = s.tap := rfl
@[simp] theorem State.modSkink_i2cIndex (s : State) (g : GeckoId) (f : Skink → Skink) : (s.modSkink g f).i2cIndex = s.i2cIndex := rfl
@[simp] theorem State.modSkink_i2cData (s : State) (g : GeckoId) (f : Skink → Skink) : (s.modSkink g f).i2cData = s.i2cData := rfl
@[simp] theorem State.modSkink_resp (s : State) (g : GeckoId) (f : Skink → Skink) : (s.modSkink g f).resp = s.resp := rfl
@[simp] theorem State.modSkink_freeCtr (s : State) (g : GeckoId) (f : Skink → Skink) : (s.modSkink g f).freeCtr = s.freeCtr := rfl

/-! ## modSlot -/

@[simp] theorem State.modSlot_pending (s : State) (i : SlotId) (f : HSlot → HSlot) : (s.modSlot i f).pending = s.pending := rfl
@[simp] theorem State.modSlot_engines (s : State) (i : SlotId) (f : HSlot → HSlot) : (s.modSlot i f).engines = s.engines := rfl
@[simp] theorem State.modSlot_dies (s : State) (i : SlotId) (f : HSlot → HSlot) : (s.modSlot i f).dies = s.dies := rfl
@[simp] theorem State.modSlot_dma (s : State) (i : SlotId) (f : HSlot → HSlot) : (s.modSlot i f).dma = s.dma := rfl
@[simp] theorem State.modSlot_lanes (s : State) (i : SlotId) (f : HSlot → HSlot) : (s.modSlot i f).lanes = s.lanes := rfl
@[simp] theorem State.modSlot_groups (s : State) (i : SlotId) (f : HSlot → HSlot) : (s.modSlot i f).groups = s.groups := rfl
@[simp] theorem State.modSlot_ports (s : State) (i : SlotId) (f : HSlot → HSlot) : (s.modSlot i f).ports = s.ports := rfl
@[simp] theorem State.modSlot_chainReqs (s : State) (i : SlotId) (f : HSlot → HSlot) : (s.modSlot i f).chainReqs = s.chainReqs := rfl
@[simp] theorem State.modSlot_beats (s : State) (i : SlotId) (f : HSlot → HSlot) : (s.modSlot i f).beats = s.beats := rfl
@[simp] theorem State.modSlot_nextReq (s : State) (i : SlotId) (f : HSlot → HSlot) : (s.modSlot i f).nextReq = s.nextReq := rfl
@[simp] theorem State.modSlot_stops (s : State) (i : SlotId) (f : HSlot → HSlot) : (s.modSlot i f).stops = s.stops := rfl
@[simp] theorem State.modSlot_stopNo (s : State) (i : SlotId) (f : HSlot → HSlot) : (s.modSlot i f).stopNo = s.stopNo := rfl
@[simp] theorem State.modSlot_reds (s : State) (i : SlotId) (f : HSlot → HSlot) : (s.modSlot i f).reds = s.reds := rfl
@[simp] theorem State.modSlot_fox (s : State) (i : SlotId) (f : HSlot → HSlot) : (s.modSlot i f).fox = s.fox := rfl
@[simp] theorem State.modSlot_skink (s : State) (i : SlotId) (f : HSlot → HSlot) : (s.modSlot i f).skink = s.skink := rfl
@[simp] theorem State.modSlot_mem (s : State) (i : SlotId) (f : HSlot → HSlot) : (s.modSlot i f).mem = s.mem := rfl
@[simp] theorem State.modSlot_cal (s : State) (i : SlotId) (f : HSlot → HSlot) : (s.modSlot i f).cal = s.cal := rfl
@[simp] theorem State.modSlot_ecc (s : State) (i : SlotId) (f : HSlot → HSlot) : (s.modSlot i f).ecc = s.ecc := rfl
@[simp] theorem State.modSlot_retired (s : State) (i : SlotId) (f : HSlot → HSlot) : (s.modSlot i f).retired = s.retired := rfl
@[simp] theorem State.modSlot_timNow (s : State) (i : SlotId) (f : HSlot → HSlot) : (s.modSlot i f).timNow = s.timNow := rfl
@[simp] theorem State.modSlot_fc (s : State) (i : SlotId) (f : HSlot → HSlot) : (s.modSlot i f).fc = s.fc := rfl
@[simp] theorem State.modSlot_helio (s : State) (i : SlotId) (f : HSlot → HSlot) : (s.modSlot i f).helio = s.helio := rfl
@[simp] theorem State.modSlot_coord (s : State) (i : SlotId) (f : HSlot → HSlot) : (s.modSlot i f).coord = s.coord := rfl
@[simp] theorem State.modSlot_lark (s : State) (i : SlotId) (f : HSlot → HSlot) : (s.modSlot i f).lark = s.lark := rfl
@[simp] theorem State.modSlot_objects (s : State) (i : SlotId) (f : HSlot → HSlot) : (s.modSlot i f).objects = s.objects := rfl
@[simp] theorem State.modSlot_sealKey (s : State) (i : SlotId) (f : HSlot → HSlot) : (s.modSlot i f).sealKey = s.sealKey := rfl
@[simp] theorem State.modSlot_mintWorld (s : State) (i : SlotId) (f : HSlot → HSlot) : (s.modSlot i f).mintWorld = s.mintWorld := rfl
@[simp] theorem State.modSlot_chanMask (s : State) (i : SlotId) (f : HSlot → HSlot) : (s.modSlot i f).chanMask = s.chanMask := rfl
@[simp] theorem State.modSlot_mapStale (s : State) (i : SlotId) (f : HSlot → HSlot) : (s.modSlot i f).mapStale = s.mapStale := rfl
@[simp] theorem State.modSlot_pins (s : State) (i : SlotId) (f : HSlot → HSlot) : (s.modSlot i f).pins = s.pins := rfl
@[simp] theorem State.modSlot_liveTemp (s : State) (i : SlotId) (f : HSlot → HSlot) : (s.modSlot i f).liveTemp = s.liveTemp := rfl
@[simp] theorem State.modSlot_throttled (s : State) (i : SlotId) (f : HSlot → HSlot) : (s.modSlot i f).throttled = s.throttled := rfl
@[simp] theorem State.modSlot_supplyHold (s : State) (i : SlotId) (f : HSlot → HSlot) : (s.modSlot i f).supplyHold = s.supplyHold := rfl
@[simp] theorem State.modSlot_pcie (s : State) (i : SlotId) (f : HSlot → HSlot) : (s.modSlot i f).pcie = s.pcie := rfl
@[simp] theorem State.modSlot_tap (s : State) (i : SlotId) (f : HSlot → HSlot) : (s.modSlot i f).tap = s.tap := rfl
@[simp] theorem State.modSlot_i2cIndex (s : State) (i : SlotId) (f : HSlot → HSlot) : (s.modSlot i f).i2cIndex = s.i2cIndex := rfl
@[simp] theorem State.modSlot_i2cData (s : State) (i : SlotId) (f : HSlot → HSlot) : (s.modSlot i f).i2cData = s.i2cData := rfl
@[simp] theorem State.modSlot_resp (s : State) (i : SlotId) (f : HSlot → HSlot) : (s.modSlot i f).resp = s.resp := rfl
@[simp] theorem State.modSlot_freeCtr (s : State) (i : SlotId) (f : HSlot → HSlot) : (s.modSlot i f).freeCtr = s.freeCtr := rfl

/-! ## draw -/

@[simp] theorem State.draw_pending (s : State) : (s.draw).pending = s.pending := rfl
@[simp] theorem State.draw_engines (s : State) : (s.draw).engines = s.engines := rfl
@[simp] theorem State.draw_dies (s : State) : (s.draw).dies = s.dies := rfl
@[simp] theorem State.draw_dma (s : State) : (s.draw).dma = s.dma := rfl
@[simp] theorem State.draw_lanes (s : State) : (s.draw).lanes = s.lanes := rfl
@[simp] theorem State.draw_groups (s : State) : (s.draw).groups = s.groups := rfl
@[simp] theorem State.draw_ports (s : State) : (s.draw).ports = s.ports := rfl
@[simp] theorem State.draw_chainReqs (s : State) : (s.draw).chainReqs = s.chainReqs := rfl
@[simp] theorem State.draw_beats (s : State) : (s.draw).beats = s.beats := rfl
@[simp] theorem State.draw_nextReq (s : State) : (s.draw).nextReq = s.nextReq := rfl
@[simp] theorem State.draw_stops (s : State) : (s.draw).stops = s.stops := rfl
@[simp] theorem State.draw_stopNo (s : State) : (s.draw).stopNo = s.stopNo := rfl
@[simp] theorem State.draw_reds (s : State) : (s.draw).reds = s.reds := rfl
@[simp] theorem State.draw_fox (s : State) : (s.draw).fox = s.fox := rfl
@[simp] theorem State.draw_skink (s : State) : (s.draw).skink = s.skink := rfl
@[simp] theorem State.draw_mem (s : State) : (s.draw).mem = s.mem := rfl
@[simp] theorem State.draw_cal (s : State) : (s.draw).cal = s.cal := rfl
@[simp] theorem State.draw_ecc (s : State) : (s.draw).ecc = s.ecc := rfl
@[simp] theorem State.draw_retired (s : State) : (s.draw).retired = s.retired := rfl
@[simp] theorem State.draw_timNow (s : State) : (s.draw).timNow = s.timNow := rfl
@[simp] theorem State.draw_fc (s : State) : (s.draw).fc = s.fc := rfl
@[simp] theorem State.draw_helio (s : State) : (s.draw).helio = s.helio := rfl
@[simp] theorem State.draw_coord (s : State) : (s.draw).coord = s.coord := rfl
@[simp] theorem State.draw_lark (s : State) : (s.draw).lark = s.lark := rfl
@[simp] theorem State.draw_objects (s : State) : (s.draw).objects = s.objects := rfl
@[simp] theorem State.draw_sealKey (s : State) : (s.draw).sealKey = s.sealKey := rfl
@[simp] theorem State.draw_mintWorld (s : State) : (s.draw).mintWorld = s.mintWorld := rfl
@[simp] theorem State.draw_hslots (s : State) : (s.draw).hslots = s.hslots := rfl
@[simp] theorem State.draw_chanMask (s : State) : (s.draw).chanMask = s.chanMask := rfl
@[simp] theorem State.draw_mapStale (s : State) : (s.draw).mapStale = s.mapStale := rfl
@[simp] theorem State.draw_pins (s : State) : (s.draw).pins = s.pins := rfl
@[simp] theorem State.draw_liveTemp (s : State) : (s.draw).liveTemp = s.liveTemp := rfl
@[simp] theorem State.draw_throttled (s : State) : (s.draw).throttled = s.throttled := rfl
@[simp] theorem State.draw_supplyHold (s : State) : (s.draw).supplyHold = s.supplyHold := rfl
@[simp] theorem State.draw_pcie (s : State) : (s.draw).pcie = s.pcie := rfl
@[simp] theorem State.draw_tap (s : State) : (s.draw).tap = s.tap := rfl
@[simp] theorem State.draw_i2cIndex (s : State) : (s.draw).i2cIndex = s.i2cIndex := rfl
@[simp] theorem State.draw_i2cData (s : State) : (s.draw).i2cData = s.i2cData := rfl
@[simp] theorem State.draw_resp (s : State) : (s.draw).resp = s.resp := rfl

/-! ## answer -/

@[simp] theorem State.answer_pending (s : State) (r : Resp) : (s.answer r).pending = s.pending := rfl
@[simp] theorem State.answer_engines (s : State) (r : Resp) : (s.answer r).engines = s.engines := rfl
@[simp] theorem State.answer_dies (s : State) (r : Resp) : (s.answer r).dies = s.dies := rfl
@[simp] theorem State.answer_dma (s : State) (r : Resp) : (s.answer r).dma = s.dma := rfl
@[simp] theorem State.answer_lanes (s : State) (r : Resp) : (s.answer r).lanes = s.lanes := rfl
@[simp] theorem State.answer_groups (s : State) (r : Resp) : (s.answer r).groups = s.groups := rfl
@[simp] theorem State.answer_ports (s : State) (r : Resp) : (s.answer r).ports = s.ports := rfl
@[simp] theorem State.answer_chainReqs (s : State) (r : Resp) : (s.answer r).chainReqs = s.chainReqs := rfl
@[simp] theorem State.answer_beats (s : State) (r : Resp) : (s.answer r).beats = s.beats := rfl
@[simp] theorem State.answer_nextReq (s : State) (r : Resp) : (s.answer r).nextReq = s.nextReq := rfl
@[simp] theorem State.answer_stops (s : State) (r : Resp) : (s.answer r).stops = s.stops := rfl
@[simp] theorem State.answer_stopNo (s : State) (r : Resp) : (s.answer r).stopNo = s.stopNo := rfl
@[simp] theorem State.answer_reds (s : State) (r : Resp) : (s.answer r).reds = s.reds := rfl
@[simp] theorem State.answer_fox (s : State) (r : Resp) : (s.answer r).fox = s.fox := rfl
@[simp] theorem State.answer_skink (s : State) (r : Resp) : (s.answer r).skink = s.skink := rfl
@[simp] theorem State.answer_mem (s : State) (r : Resp) : (s.answer r).mem = s.mem := rfl
@[simp] theorem State.answer_cal (s : State) (r : Resp) : (s.answer r).cal = s.cal := rfl
@[simp] theorem State.answer_ecc (s : State) (r : Resp) : (s.answer r).ecc = s.ecc := rfl
@[simp] theorem State.answer_retired (s : State) (r : Resp) : (s.answer r).retired = s.retired := rfl
@[simp] theorem State.answer_timNow (s : State) (r : Resp) : (s.answer r).timNow = s.timNow := rfl
@[simp] theorem State.answer_fc (s : State) (r : Resp) : (s.answer r).fc = s.fc := rfl
@[simp] theorem State.answer_helio (s : State) (r : Resp) : (s.answer r).helio = s.helio := rfl
@[simp] theorem State.answer_coord (s : State) (r : Resp) : (s.answer r).coord = s.coord := rfl
@[simp] theorem State.answer_lark (s : State) (r : Resp) : (s.answer r).lark = s.lark := rfl
@[simp] theorem State.answer_objects (s : State) (r : Resp) : (s.answer r).objects = s.objects := rfl
@[simp] theorem State.answer_sealKey (s : State) (r : Resp) : (s.answer r).sealKey = s.sealKey := rfl
@[simp] theorem State.answer_mintWorld (s : State) (r : Resp) : (s.answer r).mintWorld = s.mintWorld := rfl
@[simp] theorem State.answer_hslots (s : State) (r : Resp) : (s.answer r).hslots = s.hslots := rfl
@[simp] theorem State.answer_chanMask (s : State) (r : Resp) : (s.answer r).chanMask = s.chanMask := rfl
@[simp] theorem State.answer_mapStale (s : State) (r : Resp) : (s.answer r).mapStale = s.mapStale := rfl
@[simp] theorem State.answer_pins (s : State) (r : Resp) : (s.answer r).pins = s.pins := rfl
@[simp] theorem State.answer_liveTemp (s : State) (r : Resp) : (s.answer r).liveTemp = s.liveTemp := rfl
@[simp] theorem State.answer_throttled (s : State) (r : Resp) : (s.answer r).throttled = s.throttled := rfl
@[simp] theorem State.answer_supplyHold (s : State) (r : Resp) : (s.answer r).supplyHold = s.supplyHold := rfl
@[simp] theorem State.answer_pcie (s : State) (r : Resp) : (s.answer r).pcie = s.pcie := rfl
@[simp] theorem State.answer_tap (s : State) (r : Resp) : (s.answer r).tap = s.tap := rfl
@[simp] theorem State.answer_i2cIndex (s : State) (r : Resp) : (s.answer r).i2cIndex = s.i2cIndex := rfl
@[simp] theorem State.answer_i2cData (s : State) (r : Resp) : (s.answer r).i2cData = s.i2cData := rfl
@[simp] theorem State.answer_freeCtr (s : State) (r : Resp) : (s.answer r).freeCtr = s.freeCtr := rfl

@[simp] theorem State.modEng_eng (s : State) (e : EngineId) (f : Engine → Engine) : (s.modEng e f).eng e = f (s.eng e) := by
  simp [State.modEng, State.eng]
theorem State.modEng_eng_ne (s : State) {e e' : EngineId} (f : Engine → Engine) (h : e' ≠ e) : (s.modEng e f).eng e' = s.eng e' := by
  have h' : ¬ (e : Nat) = (e' : Nat) := fun x => h (Fin.ext x.symm)
  simp [State.modEng, State.eng, h']
@[simp] theorem State.modEng_modEng (s : State) (e : EngineId) (f g : Engine → Engine) :
    (s.modEng e f).modEng e g = s.modEng e (fun x => g (f x)) := by
  simp [State.modEng, Vector.set_set]
@[simp] theorem State.modDie_die (s : State) (d : DieId) (f : Die → Die) : (s.modDie d f).die d = f (s.die d) := by
  simp [State.modDie, State.die]
theorem State.modDie_die_ne (s : State) {d d' : DieId} (f : Die → Die) (h : d' ≠ d) : (s.modDie d f).die d' = s.die d' := by
  have h' : ¬ (d : Nat) = (d' : Nat) := fun x => h (Fin.ext x.symm)
  simp [State.modDie, State.die, h']
@[simp] theorem State.modDie_modDie (s : State) (d : DieId) (f g : Die → Die) :
    (s.modDie d f).modDie d g = s.modDie d (fun x => g (f x)) := by
  simp [State.modDie, Vector.set_set]
@[simp] theorem State.modDma_get (s : State) (c : ChanId) (f : Dma → Dma) : (s.modDma c f).dma[c] = f s.dma[c] := by
  simp [State.modDma]
theorem State.modDma_get_ne (s : State) {c c' : ChanId} (f : Dma → Dma) (h : c' ≠ c) : (s.modDma c f).dma[c'] = s.dma[c'] := by
  have h' : ¬ (c : Nat) = (c' : Nat) := fun x => h (Fin.ext x.symm)
  simp [State.modDma, h']
@[simp] theorem State.modLane_get (s : State) (l : LaneId) (f : Lane → Lane) : (s.modLane l f).lanes[l] = f s.lanes[l] := by
  simp [State.modLane]
theorem State.modLane_get_ne (s : State) {l l' : LaneId} (f : Lane → Lane) (h : l' ≠ l) : (s.modLane l f).lanes[l'] = s.lanes[l'] := by
  have h' : ¬ (l : Nat) = (l' : Nat) := fun x => h (Fin.ext x.symm)
  simp [State.modLane, h']
@[simp] theorem State.modPort_get (s : State) (p : PortId) (f : ChainPort → ChainPort) : (s.modPort p f).ports[p] = f s.ports[p] := by
  simp [State.modPort]
theorem State.modPort_get_ne (s : State) {p p' : PortId} (f : ChainPort → ChainPort) (h : p' ≠ p) : (s.modPort p f).ports[p'] = s.ports[p'] := by
  have h' : ¬ (p : Nat) = (p' : Nat) := fun x => h (Fin.ext x.symm)
  simp [State.modPort, h']
@[simp] theorem State.modRed_get (s : State) (c : RedId) (f : Red → Red) : (s.modRed c f).reds[c] = f s.reds[c] := by
  simp [State.modRed]
theorem State.modRed_get_ne (s : State) {c c' : RedId} (f : Red → Red) (h : c' ≠ c) : (s.modRed c f).reds[c'] = s.reds[c'] := by
  have h' : ¬ (c : Nat) = (c' : Nat) := fun x => h (Fin.ext x.symm)
  simp [State.modRed, h']
@[simp] theorem State.modFox_get (s : State) (g : GeckoId) (f : Fox → Fox) : (s.modFox g f).fox[g] = f s.fox[g] := by
  simp [State.modFox]
theorem State.modFox_get_ne (s : State) {g g' : GeckoId} (f : Fox → Fox) (h : g' ≠ g) : (s.modFox g f).fox[g'] = s.fox[g'] := by
  have h' : ¬ (g : Nat) = (g' : Nat) := fun x => h (Fin.ext x.symm)
  simp [State.modFox, h']
@[simp] theorem State.modSkink_get (s : State) (g : GeckoId) (f : Skink → Skink) : (s.modSkink g f).skink[g] = f s.skink[g] := by
  simp [State.modSkink]
theorem State.modSkink_get_ne (s : State) {g g' : GeckoId} (f : Skink → Skink) (h : g' ≠ g) : (s.modSkink g f).skink[g'] = s.skink[g'] := by
  have h' : ¬ (g : Nat) = (g' : Nat) := fun x => h (Fin.ext x.symm)
  simp [State.modSkink, h']
@[simp] theorem State.modSlot_get (s : State) (i : SlotId) (f : HSlot → HSlot) : (s.modSlot i f).hslots[i] = f s.hslots[i] := by
  simp [State.modSlot]
theorem State.modSlot_get_ne (s : State) {i i' : SlotId} (f : HSlot → HSlot) (h : i' ≠ i) : (s.modSlot i f).hslots[i'] = s.hslots[i'] := by
  have h' : ¬ (i : Nat) = (i' : Nat) := fun x => h (Fin.ext x.symm)
  simp [State.modSlot, h']

@[simp] theorem State.mapEng_eng (s : State) (f : EngineId → Engine → Engine) (e : EngineId) :
    (s.mapEng f).eng e = f e (s.eng e) := by
  simp [State.mapEng, State.eng]
@[simp] theorem State.draw_freeCtr (s : State) : s.draw.freeCtr = s.freeCtr + 1 := rfl
@[simp] theorem State.answer_resp (s : State) (r : Resp) : (s.answer r).resp = r := rfl
@[simp] theorem State.answer_eng (s : State) (r : Resp) (e : EngineId) : (s.answer r).eng e = s.eng e := rfl
@[simp] theorem State.answer_die (s : State) (r : Resp) (d : DieId) : (s.answer r).die d = s.die d := rfl
@[simp] theorem State.draw_eng (s : State) (e : EngineId) : s.draw.eng e = s.eng e := rfl
@[simp] theorem State.modDie_eng (s : State) (d : DieId) (f : Die → Die) (e : EngineId) : (s.modDie d f).eng e = s.eng e := rfl
@[simp] theorem State.modEng_die (s : State) (e : EngineId) (f : Engine → Engine) (d : DieId) : (s.modEng e f).die d = s.die d := rfl
@[simp] theorem State.mapEng_die (s : State) (f : EngineId → Engine → Engine) (d : DieId) : (s.mapEng f).die d = s.die d := by
  rw [State.die, State.mapEng_dies, State.die]

end Sys2Proof.Machine
end

