-- ==== Sys2Proof/Laws/Engine.lean ====
section
/-!
SUPPORT. Laws/Engine.lean: an operation triggered on a quiet engine issues at once (Table 2-4); what the passing of ec leaves; and
the state after the issue as one change of the engine.
-/
namespace Sys2Proof.Machine

/-! ## A bundle of one operation -/

/-- The one live move of such a bundle. -/
abbrev mv (u n : Nat) (v : Vec) : Live := ({ slot := 0, guard := 0, src := .imm v, dunit := u, dport := 64 + n }, v)

theorem guard0 (g : Engine) : g.guard 0 = true := by
  simp [Engine.guard, Engine.readSock, bitOf]

theorem liveMoves_oneOp (g : Engine) (u n : Nat) (v : Vec) :
    g.liveMoves (oneOp u n v) = [mv u n v] := by
  simp [Engine.liveMoves, Engine.suppressed, oneOp, guard0, Engine.srcVal]

theorem trigs_one (u n : Nat) (v : Vec) (hu : 3 ≤ u) :
    trigs [mv u n v] = [(0, u, n)] := by
  simp [trigs, Move.op, hu]

theorem trapDue_quiet {s e} (h : Quiet s e) : (s.eng e).trapDue = none := by
  simp [Engine.trapDue, h.owed]
theorem opEvent_quiet {s e} (h : Quiet s e) : (s.eng e).opEvent = none := by
  simp [Engine.opEvent, Engine.faultBelow, h.capErr, h.inflight]
theorem entryFirst_quiet {s e} (h : Quiet s e) : s.entryFirst e = none := by
  have hp : (s.eng e).preciseHold = none := by simp [Engine.preciseHold, h.inflight]
  simp [State.entryFirst, h.free, hp, trapDue_quiet h, opEvent_quiet h]

theorem longCount_le (s : State) (e ms u n) : s.longCount e ms u n ≤ 2 := by
  unfold State.longCount
  dsimp only
  split
  · simp
  · split
    · split <;> simp
    · split
      · split
        · split <;> simp
        · simp
      · simp

theorem rateLeft_quiet {s e} (h : Quiet s e) (u n : Nat) : (s.eng e).rateLeft u n = 0 := by
  simp only [Engine.rateLeft, h.seqBusy, h.inflight]
  split
  · rfl
  · split
    · rfl
    · simp

/-- Not memory, not a control operation. -/
theorem issueHolds_quiet {s e} (h : Quiet s e) (u n : Nat) (v : Vec) (hu : 3 ≤ u) (hm : isMem u = false) :
    s.issueHolds e [mv u n v] = none := by
  have ht := trigs_one u n v hu
  have hl := longCount_le s e [mv u n v] u n
  have h3 : ¬ (3 ≤ s.longCount e [mv u n v] u n + 0 + 1 ∧ False) := by simp
  have hr : (s.eng e).rateHolds [mv u n v] = [] := by
    simp [Engine.rateHolds, rateLeft_quiet h]
  have hvr : (s.eng e).vrHold [mv u n v] = [] := by
    simp [Engine.vrHold, h.vrDirect]
  have hsc : s.scatterHold e [mv u n v] = [] := by
    simp [State.scatterHold, h.inflight]
  have hw : (s.eng e).wakeHold [mv u n v] = [] := by
    simp [Engine.wakeHold, h.vpwr]
  have hlo : s.longHold e [mv u n v] = [] := by
    simp only [State.longHold, ht, h.inflight]
    rw [if_pos]
    right
    simp [sumNat]
    omega
  have hil : s.ilHold e [mv u n v] = [] := by
    simp [State.ilHold, h.inflight, h.ilBuf]
  have hb : s.bufferHold e [mv u n v] = [] := by
    simp [State.bufferHold, ht, hm, sumNat]
  have hp : s.dataPages e [mv u n v] = [] := by
    simp [State.dataPages, ht, hm]
  have hwk : s.walkHold e [mv u n v] = [] := by
    simp [State.walkHold, hp]
  have ho : (s.eng e).orderHold [mv u n v] = [] := by
    simp [Engine.orderHold]
  have hwt : s.waitHold e = [] := by simp [State.waitHold, h.waitTo]
  simp only [State.issueHolds, hwt, hr, hvr, hsc, hw, hlo, hil, hb, hwk, ho, List.append_nil, holdAll]


theorem nextBundle_quiet {s e} (h : Quiet s e) (u n : Nat) (v : Vec) (hu : 3 ≤ u) (h8 : u ≠ 8) (hm : isMem u = false)
    (hp : ({ slot := 0, guard := 0, src := .imm v, dunit := u, dport := 64 + n } : Move).priv = true → (s.eng e).sup = true)
    (hs : u = 15 → n = 0 → sysSup (v.toNat % 256) = true → (s.eng e).sup = true) :
    s.nextBundle e (oneOp u n v) = (.issue (oneOp u n v) [mv u n v] [], s) := by
  have hd : (s.eng e).decodeEvent (oneOp u n v) = none := by
    simp only [Engine.decodeEvent, oneOp]
    split <;> rename_i a b
    · simp at b
    · split
      · rfl
      · rename_i i hi
        by_cases hq : ({ slot := 0, guard := 0, src := .imm v, dunit := u, dport := 64 + n } : Move).priv = true
        · exact absurd (hp hq) hi
        · simp [hq] at b
    · rfl
  have hl := liveMoves_oneOp (s.eng e) u n v
  have hrv : (s.eng e).readsVariable [mv u n v] = false := by simp [Engine.readsVariable]
  have hse : (s.eng e).sysEvent [mv u n v] = none := by
    simp only [Engine.sysEvent]
    split
    · rfl
    · rename_i hsup
      have hno : ¬ (u = 15 ∧ n = 0 ∧ sysSup (v.toNat % 256) = true) := fun x => hsup (hs x.1 x.2.1 x.2.2)
      have hq : [mv u n v].find? (fun m => m.1.dunit == 15 && m.1.op == some 0 && sysSup (m.2.toNat % 256)) = none := by
        simp only [List.find?_eq_none, List.mem_singleton, forall_eq]
        simp [Move.op, hu]
        intro h1 h2
        cases hh : sysSup (v.toNat % 256)
        · rfl
        · exact absurd ⟨h1, h2, hh⟩ hno
      rw [hq]
  have hz : s.hazards e (oneOp u n v) [mv u n v] = [] := by simp [State.hazards, h.haz]
  have hh := issueHolds_quiet h u n v hu hm
  have hc : cuOp [mv u n v] = none := by
    simp [cuOp, Move.op, h8, hu]
  have hla : s.launch e (oneOp u n v) = none := by simp [State.launch, oneOp]
  simp only [State.nextBundle, hd, hl, hrv, hse, hz, List.find?_nil, hh, State.nextIssue, hc, hla, h.irq, Option.map_none,
    Option.or_none, Bool.false_eq_true, if_false]

theorem nearCycle_quiet {s e} (h : Quiet s e) : s.nearCycle e = s := by simp [State.nearCycle, h.cycle]
theorem openCycle_quiet {s e} (h : Quiet s e) : s.openCycle e = s := by simp [State.openCycle, h.cycle]

theorem trigger_quiet {s e} (h : Quiet s e) (u n : Nat) (v : Vec) (hu : 3 ≤ u) (h8 : u ≠ 8) (hm : isMem u = false)
    (hp : ({ slot := 0, guard := 0, src := .imm v, dunit := u, dport := 64 + n } : Move).priv = true → (s.eng e).sup = true)
    (hs : u = 15 → n = 0 → sysSup (v.toNat % 256) = true → (s.eng e).sup = true) :
    s.trigger e u n v = s.opIssue e (oneOp u n v) [mv u n v] [] := by
  have hn := nextBundle_quiet h u n v hu h8 hm hp hs
  simp only [State.trigger, h.running, h.returning, nearCycle_quiet h, openCycle_quiet h, entryFirst_quiet h, hn, Bool.not_true, Option.isSome_none,
    Bool.false_eq_true, if_false]

/-! ## The passing of ec -/

/-- What the passing of ec leaves of an engine. -/
def Engine.forget (g : Engine) : Engine :=
  { g with
    ec := 0, ahead := 0, late := [], btb := [], rstack := [], vidle := 0, vdue := false, vtrig := false, vpwr := .on, vwake := 0, tlb := []
    throttle := 0, entryFrame := none, iw := [] }
/-- Nothing has been delivered or written directly in the present ec, nor written by port B. -/
def Engine.calm (g : Engine) : Prop := g.came = [] ∧ g.vrDirect = 0 ∧ g.portB = []

theorem lateAct_forget (g : Engine) (p : Nat) (w : Word) : (g.lateAct p w).forget = g.forget := by
  unfold Engine.lateAct Engine.vecEffect Engine.wake
  dsimp only
  repeat' split
  all_goals rfl

theorem lateActs_forget (l : List (Nat × Nat × Word)) (g : Engine) :
    (l.foldl (fun h p => h.lateAct p.2.1 p.2.2) g).forget = g.forget := by
  induction l generalizing g with
  | nil => rfl
  | cons a l ih => rw [List.foldl_cons, ih, lateAct_forget]

theorem vecIdle_forget (g : Engine) : g.vecIdle.forget = g.forget := by
  unfold Engine.vecIdle; dsimp only; split <;> rfl

theorem endEc_calm {g : Engine} (h : g.calm) : g.endEc = g := by
  obtain ⟨h1, h2, h3⟩ := h
  unfold Engine.endEc; rw [h3, List.filter_nil, ← h1, ← h2, ← h3]

theorem calm_of_forget {g h : Engine} (he : g.forget = h.forget) (hc : h.calm) : g.calm :=
  ⟨((congrArg Engine.came he :) : g.came = h.came).trans hc.1,
   ((congrArg Engine.vrDirect he :) : g.vrDirect = h.vrDirect).trans hc.2.1,
   ((congrArg Engine.portB he :) : g.portB = h.portB).trans hc.2.2⟩

theorem passEc_forget {g : Engine} (h : g.calm) : g.passEc.forget = g.forget := by
  unfold Engine.passEc Engine.lateDue
  have hc : g.vecIdle.calm := calm_of_forget (vecIdle_forget g) h
  rw [endEc_calm hc]
  exact (lateActs_forget _ _).trans (vecIdle_forget g)

theorem passEcs_forget (n : Nat) {g : Engine} (h : g.calm) : (passEcs n g).forget = g.forget := by
  induction n generalizing g with
  | zero => rfl
  | succ n ih => rw [passEcs, ih (calm_of_forget (passEc_forget h) h), passEc_forget h]

theorem startAll_one (s : State) (e) (pc : Word) (u n : Nat) :
    s.startAll e pc [(0, u, n)] =
      ((s.modEng e (·.setId (s.eng e).opId)).startOp e pc 0 u n false).modEng e (·.endStart ((s.eng e).opId + 1)) := by
  unfold State.startAll
  have hz : (List.range [(0, u, n)].length).zip [(0, u, n)] = [(0, 0, u, n)] := rfl
  dsimp only
  rw [hz]
  cases h : (isMem u && !(memLoad u n)) <;> simp only [List.filter_cons, h, List.filter_nil, forAll, List.foldl_cons, List.foldl_nil, List.nil_append, List.append_nil, Bool.not_true, Bool.not_false, Bool.false_eq_true, if_false, if_true, List.length_singleton, Nat.add_zero]


/-! ## The issue as one change of the engine -/

/-- The engine after steps 1 and 2 of R42: the operand port of the operation holds v (R35). -/
def Engine.operand (g : Engine) (u n : Nat) (v : Vec) : Engine :=
  match lastPort u n with | some p => g.writeSock u p v | none => g
/-- The same with the records of the issue. -/
def Engine.primed (g : Engine) (u n : Nat) (v : Vec) : Engine :=
  { g.operand u n v with haz := { g.haz with losses := [], rateHeld := [] } }
/-- The engine at the end of the issue, h being the engine after the operation has started. -/
def Engine.issueDone (g h : Engine) (slow : Bool) : Engine :=
  (({ h with
    pc := g.pc, repLeft := g.repLeft, repResume := g.repResume, waitTo := none, launchWait := false, walked := none,
    tables := [], hazExempt := false, cycleOpen := false, activeB := if bitOf g.pc 31 then h.activeB else halfOf g.pc, bubbles := 0
    opId := g.opId + 1, inflight := orderOps h.inflight } : Engine)).issueTime
      false slow

theorem lastPort_le {u n p : Nat} (h : lastPort u n = some p) : p ≤ 2 := by
  unfold lastPort at h
  split at h <;> simp at h
  all_goals (try omega)
  all_goals (try (split at h <;> omega))
  · obtain ⟨o, -, h⟩ := h
    split at h <;> omega

theorem writeSock_unit (g : Engine) {u p : Nat} (v : Vec) (hu : 3 ≤ u) (hp : p ≤ 2) :
    ∃ us, g.writeSock u p v = { g with units := us } := by
  unfold Engine.writeSock
  rw [if_neg (by omega), if_neg (by omega), if_neg (by omega), if_neg (by omega), if_neg (by omega), if_neg (by omega)]
  exact ⟨_, rfl⟩

theorem operand_unit (g : Engine) (u n : Nat) (v : Vec) (hu : 3 ≤ u) :
    ∃ us, g.operand u n v = { g with units := us } := by
  unfold Engine.operand
  split
  · rename_i p hp
    exact writeSock_unit g v hu (lastPort_le hp)
  · exact ⟨g.units, rfl⟩

theorem hazIssue_quiet (g : Engine) (h : g.hazOn = false) :
    g.hazIssue [] = { g with haz := { g.haz with losses := [], rateHeld := [] } } := by
  simp [Engine.hazIssue, h]

theorem issued_quiet (g : Engine) (u n : Nat) (v : Vec) (hu : 3 ≤ u) (h8 : u ≠ 8) (hz : g.hazOn = false)
    (hi : g.inflight = []) (ho : g.owed = []) : g.issued (oneOp u n v) [mv u n v] [] = g.primed u n v := by
  have hc : cuOp [mv u n v] = none := by simp [cuOp, Move.op, h8, hu]
  have hb : (oneOp u n v).cu = none := by simp [Bundle.cu, oneOp, h8]
  have hmis : g.mispredicts (oneOp u n v) [mv u n v] = false := by simp [Engine.mispredicts, hb]
  have hmw (k : Engine) : k.moveWrite { slot := 0, guard := 0, src := .imm v, dunit := u, dport := 64 + n } v = k.operand u n v := by
    have ho : ({ slot := 0, guard := 0, src := .imm v, dunit := u, dport := 64 + n } : Move).op = some n := by simp [Move.op, hu]
    unfold Engine.moveWrite
    rw [ho]
    rfl
  have hr : (oneOp u n v).repn = 0 := rfl
  simp only [Engine.issued, hmis, Bool.false_eq_true, if_false, Engine.issueWrites, hc, hr, List.foldl_cons, List.foldl_nil, hmw,
    hazIssue_quiet g hz]
  rw [if_neg (by omega)]
  unfold Engine.primed Engine.laterBundle
  obtain ⟨us, h1⟩ := operand_unit g u n v hu
  obtain ⟨us', h2⟩ := operand_unit ({ g with haz := { g.haz with losses := [], rateHeld := [] } } : Engine) u n v hu
  have h3 : us' = us := by
    have e1 : (({ g with haz := { g.haz with losses := [], rateHeld := [] } } : Engine).operand u n v).units = (g.operand u n v).units := by
      unfold Engine.operand
      split
      · rename_i p hp
        have hp := lastPort_le hp
        unfold Engine.writeSock
        rw [if_neg (by omega), if_neg (by omega), if_neg (by omega), if_neg (by omega), if_neg (by omega), if_neg (by omega)]
        rw [if_neg (by omega), if_neg (by omega), if_neg (by omega), if_neg (by omega), if_neg (by omega), if_neg (by omega)]
        rfl
      · rfl
    rw [h1, h2] at e1
    exact e1
  subst h3
  rw [h1, h2]
  simp [hi, ho]

theorem primed_opId (g : Engine) (u n : Nat) (v : Vec) (hu : 3 ≤ u) : (g.primed u n v).opId = g.opId := by
  obtain ⟨us, h⟩ := operand_unit g u n v hu
  simp only [Engine.primed, h]

theorem setId_self (g : Engine) {n : Nat} (h : g.opId = n) : g.setId n = g := by subst h; rfl

theorem modEng_congr {s : State} {e : EngineId} {f g : Engine → Engine} (h : f (s.eng e) = g (s.eng e)) :
    s.modEng e f = s.modEng e g := by
  unfold State.modEng; unfold State.eng at h; rw [h]

theorem issueNext_one (g h : Engine) (u n : Nat) (v : Vec) (hu : 3 ≤ u) (h8 : u ≠ 8) (hw : ¬(u = 14 ∧ n = 2)) :
    (g.issueNext (oneOp u n v) [mv u n v] h).stayAt g =
      { h with pc := g.pc, repLeft := g.repLeft, repResume := g.repResume, waitTo := none, launchWait := false, walked := none,
               tables := [], hazExempt := false, cycleOpen := false
               activeB := if bitOf g.pc 31 then h.activeB else halfOf g.pc, bubbles := 0 } := by
  have hc : cuOp [mv u n v] = none := by simp [cuOp, Move.op, h8, hu]
  have hb : (oneOp u n v).cu = none := by simp [Bundle.cu, oneOp, h8]
  have ht : trigs [mv u n v] = _ := trigs_one u n v hu
  have hf : ((trigs [mv u n v]).any fun t => t.2.1 == 14 && t.2.2 == 2) = false := by
    rw [ht]; simp
    intro h1 h2; exact hw ⟨h1, h2⟩
  unfold Engine.issueNext
  simp only [hc, hb, hf]
  rfl

/-- The ec of an issue counts against the throttle of the engine's world (R430). -/
def State.slow (s : State) (e : EngineId) : Bool := s.throttled && s.world e = .H

theorem issueEc_eq (s : State) (e : EngineId) (b : Bool) : s.issueEc e b = s.modEng e (·.issueTime b (s.slow e)) := rfl

theorem modEng_slow (s : State) (e : EngineId) (f : Engine → Engine) :
    (s.modEng e f).slow e = (s.throttled && (f (s.eng e)).world = .H) := by simp [State.slow, State.world]

/-- An operation triggered on a quiet engine starts in the present ec, with its trigger value at its operand port; then the ec
passes. -/
theorem opIssue_eq {s : State} {e : EngineId} (h : Quiet s e) (u n : Nat) (v : Vec) (hu : 3 ≤ u) (h8 : u ≠ 8)
    (hw : ¬(u = 14 ∧ n = 2)) :
    s.opIssue e (oneOp u n v) [mv u n v] [] =
      ((s.modEng e (·.primed u n v)).startOp e (s.eng e).pc 0 u n false).modEng e fun g =>
        (s.eng e).issueDone g (((s.modEng e (·.primed u n v)).startOp e (s.eng e).pc 0 u n false).slow e) := by
  have hc : cuOp [mv u n v] = none := by simp [cuOp, Move.op, h8, hu]
  have ht : trigs [mv u n v] = _ := trigs_one u n v hu
  have hb : (oneOp u n v).cu = none := by simp [Bundle.cu, oneOp, h8]
  have hmis (g : Engine) : g.mispredicts (oneOp u n v) [mv u n v] = false := by simp [Engine.mispredicts, hb]
  have hts : (trigs [mv u n v]).filter (fun t => t.2.1 ≠ 8) = [(0, u, n)] := by simp [ht, h8]
  have hi := issued_quiet (s.eng e) u n v hu h8 h.haz h.inflight h.owed
  have hp := primed_opId (s.eng e) u n v hu
  unfold State.opIssue State.issueEnd State.issueAt
  dsimp only
  rw [hts, startAll_one]
  simp only [hmis, hc, hb, State.modEng_modEng, State.modEng_eng, Option.isSome_none, Option.any_none, Bool.false_eq_true,
    if_false]
  have hf : s.modEng e (fun x => (x.issued (oneOp u n v) [mv u n v] []).setId ((s.eng e).issued (oneOp u n v) [mv u n v] []).opId) =
      s.modEng e (·.primed u n v) :=
    modEng_congr (by simp only [hi]; exact setId_self _ rfl)
  rw [hf, hi, hp, issueEc_eq, modEng_slow, State.modEng_modEng]
  generalize (s.modEng e (·.primed u n v)).startOp e (s.eng e).pc 0 u n false = s1
  refine modEng_congr ?_
  simp only [issueNext_one _ _ u n v hu h8 hw]
  rfl

/-! ## Operations of the computing units -/

/-- A trigger of the vector unit is noted in its ec (R155). -/
def Engine.noted (g : Engine) (u : Nat) : Engine := if u = 10 ∨ u = 11 then { g with vtrig := true } else g
theorem noted_eq (g : Engine) (u : Nat) : ∃ b, g.noted u = { g with vtrig := b } := by
  unfold Engine.noted; split
  · exact ⟨true, rfl⟩
  · exact ⟨g.vtrig, rfl⟩

theorem startOp_compute (s : State) (e : EngineId) (pc : Word) (u n : Nat) (nt : Bool) (hu : u = 3 ∨ u = 4 ∨ u = 5 ∨ u = 6 ∨ u = 7 ∨ u = 11) :
    s.startOp e pc 0 u n nt = s.modEng e fun g => (g.noted u).push ((s.eng e).compute ((s.eng e).newOp pc 0 u n nt)) := by
  have hq : isSeq u n = false := by
    unfold isSeq; rcases hu with rfl | rfl | rfl | rfl | rfl | rfl <;> simp
  have hm : isMem u = false := by
    unfold isMem; rcases hu with rfl | rfl | rfl | rfl | rfl | rfl <;> simp
  unfold State.startOp
  simp only [hq, hm, Bool.false_eq_true, if_false]
  rw [if_neg (by omega), if_neg (by omega), if_neg (by omega), if_neg (by omega)]
  by_cases h : u = 10 ∨ u = 11
  · rw [if_pos h, State.modEng_modEng]; exact modEng_congr (by simp only [Engine.noted, if_pos h])
  · rw [if_neg h]; exact modEng_congr (by simp only [Engine.noted, if_neg h])

theorem compute_kept (g : Engine) (o : Op) :
    (g.compute o).unit = o.unit ∧ (g.compute o).opcode = o.opcode ∧ (g.compute o).age = o.age ∧ (g.compute o).pc = o.pc ∧
      (g.compute o).nt = o.nt ∧ (g.compute o).fault = o.fault ∧ (g.compute o).lat = o.lat ∧ (g.compute o).id = o.id ∧
      (g.compute o).slot = o.slot ∧ (g.compute o).uses = o.uses := by
  unfold Engine.compute
  dsimp only
  split
  all_goals first | exact ⟨rfl, rfl, rfl, rfl, rfl, rfl, rfl, rfl, rfl, rfl⟩ | (split <;> exact ⟨rfl, rfl, rfl, rfl, rfl, rfl, rfl, rfl, rfl, rfl⟩)

theorem orderOps_one (o : Op) : orderOps [o] = [o] := rfl

theorem issueTime_forget {g : Engine} (h : g.calm) (a b : Bool) : (g.issueTime a b).forget = g.forget := by
  have key (k : Engine) (n : Nat) (hk : k.forget = g.forget) : (passEcs n k).forget = g.forget :=
    (passEcs_forget n (calm_of_forget hk h)).trans hk
  unfold Engine.issueTime
  apply key
  cases throughput g.mode <;> rfl

/-- Of an engine on which nothing arrives, the passing ec leave what `Engine.forget` leaves. -/
theorem issueDone_forget (g : Engine) {h : Engine} (hc : h.calm) (b : Bool) :
    (g.issueDone h b).forget = { h.forget with
      pc := g.pc, repLeft := g.repLeft, repResume := g.repResume, waitTo := none, launchWait := false, walked := none
      tables := [], hazExempt := false, cycleOpen := false, activeB := if bitOf g.pc 31 then h.activeB else halfOf g.pc, bubbles := 0
      opId := g.opId + 1, inflight := orderOps h.inflight } := by
  unfold Engine.issueDone
  rw [issueTime_forget]
  · rfl
  · exact hc

theorem issueDone_rest (g : Engine) {h : Engine} (hc : h.calm) (b : Bool) :
    (g.issueDone h b).rest = { h.rest with pc := g.pc, repLeft := g.repLeft, repResume := g.repResume, waitTo := none } :=
  (congrArg Engine.rest (issueDone_forget g hc b) :)
theorem issueDone_units (g : Engine) {h : Engine} (hc : h.calm) (b : Bool) : (g.issueDone h b).units = h.units :=
  (congrArg Engine.units (issueDone_forget g hc b) :)
theorem issueDone_inflight (g : Engine) {h : Engine} (hc : h.calm) (b : Bool) : (g.issueDone h b).inflight = orderOps h.inflight :=
  (congrArg Engine.inflight (issueDone_forget g hc b) :)
theorem issueDone_hold (g : Engine) {h : Engine} (hc : h.calm) (b : Bool) : (g.issueDone h b).holdDue = h.holdDue :=
  (congrArg Engine.holdDue (issueDone_forget g hc b) :)
theorem issueDone_cycle (g : Engine) {h : Engine} (hc : h.calm) (b : Bool) :
    (g.issueDone h b).cycleOpen = false ∧ (g.issueDone h b).bubbles = 0 :=
  ⟨(congrArg Engine.cycleOpen (issueDone_forget g hc b) :), (congrArg Engine.bubbles (issueDone_forget g hc b) :)⟩

/-! ## Ports -/

theorem unit_setUnit (g : Engine) (u : Nat) (hu : u < 16) (p : UnitPorts) : (g.setUnit u p).unit u = p := by
  simp [Engine.setUnit, Engine.unit, Vector.getD, hu]
theorem unit_setUnit_ne (g : Engine) {u j : Nat} (h : j ≠ u) (p : UnitPorts) : (g.setUnit u p).unit j = g.unit j := by
  have h : u ≠ j := fun x => h x.symm
  unfold Engine.setUnit Engine.unit
  by_cases hj : j < 16
  · simp [Vector.getD, hj, h]
  · simp [Vector.getD, hj]

/-- The ports of a unit after a move to operand port p. -/
def UnitPorts.put (x : UnitPorts) (u p : Nat) (v : Vec) : UnitPorts :=
  let v := v &&& portMask u p
  if p = 0 then { x with a := v } else if p = 1 then { x with b := v } else { x with c := v }

theorem writeSock_operand (g : Engine) {u p : Nat} (v : Vec) (hu : 3 ≤ u) (hp : p ≤ 2) :
    g.writeSock u p v = g.setUnit u ((g.unit u).put u p v) := by
  unfold Engine.writeSock
  rw [if_neg (by omega), if_neg (by omega), if_neg (by omega), if_neg (by omega), if_neg (by omega), if_neg (by omega)]
  rfl

theorem primed_unit (g : Engine) {u n p : Nat} (v : Vec) (hu : 3 ≤ u) (hu' : u < 16) (hp : lastPort u n = some p) :
    (g.primed u n v).unit u = (g.unit u).put u p v := by
  have : (g.primed u n v).unit u = (g.operand u n v).unit u := rfl
  rw [this]
  unfold Engine.operand
  rw [hp]
  dsimp only
  rw [writeSock_operand g v hu (lastPort_le hp), unit_setUnit g u hu']
theorem primed_unit_none (g : Engine) {u n : Nat} (v : Vec) (j : Nat) (hp : lastPort u n = none) :
    (g.primed u n v).unit j = g.unit j := by
  have : (g.primed u n v).unit j = (g.operand u n v).unit j := rfl
  rw [this]
  unfold Engine.operand
  rw [hp]
theorem primed_unit_ne (g : Engine) {u n j : Nat} (v : Vec) (hu : 3 ≤ u) (h : j ≠ u) :
    (g.primed u n v).unit j = g.unit j := by
  have : (g.primed u n v).unit j = (g.operand u n v).unit j := rfl
  rw [this]
  unfold Engine.operand
  split
  · rename_i p hp
    rw [writeSock_operand g v hu (lastPort_le hp), unit_setUnit_ne g h]
  · rfl

theorem put_results (x : UnitPorts) (u p : Nat) (v : Vec) : (x.put u p v).q = x.q ∧ (x.put u p v).q1 = x.q1 := by
  unfold UnitPorts.put; dsimp only; split
  · exact ⟨rfl, rfl⟩
  · split <;> exact ⟨rfl, rfl⟩

theorem readSock_unit (g : Engine) {u p : Nat} (hu : 3 ≤ u) (hp : p ≤ 2) (v : Vec) (x : UnitPorts)
    (h : g.unit u = x.put u p v) : g.readSock u p = v &&& portMask u p := by
  unfold Engine.readSock
  rw [if_neg (by omega), if_neg (by omega), if_neg (by omega), if_neg (by omega), if_neg (by omega), if_neg (by omega)]
  dsimp only
  rw [h]
  have : p = 0 ∨ p = 1 ∨ p = 2 := by omega
  rcases this with rfl | rfl | rfl <;> rfl

theorem readSock_operand (g : Engine) {u p : Nat} (hu : 3 ≤ u) (hp : p ≤ 2) :
    g.readSock u p = if p = 0 then (g.unit u).a else if p = 1 then (g.unit u).b else (g.unit u).c := by
  unfold Engine.readSock
  rw [if_neg (by omega), if_neg (by omega), if_neg (by omega), if_neg (by omega), if_neg (by omega), if_neg (by omega)]
  have : p = 0 ∨ p = 1 ∨ p = 2 := by omega
  rcases this with rfl | rfl | rfl <;> rfl
theorem readSock_congr {g h : Engine} {u p : Nat} (hu : 3 ≤ u) (hp : p ≤ 2) (hg : g.unit u = h.unit u) :
    g.readSock u p = h.readSock u p := by
  rw [readSock_operand g hu hp, readSock_operand h hu hp, hg]
theorem readSock_put (g h : Engine) {u p p' : Nat} (hu : 3 ≤ u) (hp : p ≤ 2) (hne : p ≠ p') (v : Vec)
    (hg : g.unit u = (h.unit u).put u p' v) (hp' : p' ≤ 2) : g.readSock u p = h.readSock u p := by
  rw [readSock_operand g hu hp, readSock_operand h hu hp, hg]
  have hq : p = 0 ∨ p = 1 ∨ p = 2 := by omega
  have hq' : p' = 0 ∨ p' = 1 ∨ p' = 2 := by omega
  clear hp hp' hg
  rcases hq with rfl | rfl | rfl <;> rcases hq' with rfl | rfl | rfl <;> first | exact absurd rfl hne | rfl

/-- The change that an issue on a quiet engine makes, where the operation's start only pushes it. -/
theorem started_of_push {s : State} {e : EngineId} (h : Quiet s e) (u n : Nat) (v : Vec) (hu : 3 ≤ u) (hu' : u < 16)
    (hv : ∀ p, lastPort u n = some p → v &&& portMask u p = v) (o : Op)
    (h9 : u ≠ 9) (ho : o.unit = u ∧ o.opcode = n ∧ o.age = 0 ∧ o.pc = (s.eng e).pc ∧ o.nt = false ∧ o.fault = none) (b : Bool) :
    Started s ((s.modEng e (·.primed u n v)).modEng e (fun g => (s.eng e).issueDone ((g.noted u).push o) b)) e u n v o := by
  have he : ((s.modEng e (·.primed u n v)).modEng e (fun g => (s.eng e).issueDone ((g.noted u).push o) b)).eng e =
      (s.eng e).issueDone ((((s.eng e).primed u n v).noted u).push o) b := by simp
  obtain ⟨us, h1⟩ := operand_unit (s.eng e) u n v hu
  obtain ⟨vt, h2⟩ := noted_eq ((s.eng e).primed u n v) u
  have hc : ((((s.eng e).primed u n v).noted u).push o).calm := by
    rw [h2]; unfold Engine.primed; rw [h1]; exact ⟨h.came, h.vrDirect, h.portB⟩
  have hun (j : Nat) : ((s.eng e).issueDone ((((s.eng e).primed u n v).noted u).push o) b).unit j = ((s.eng e).primed u n v).unit j := by
    unfold Engine.unit; rw [issueDone_units _ hc, h2]; rfl
  constructor
  · rw [he, State.modEng_modEng]; rfl
  · rw [he, issueDone_rest _ hc, h2]
    unfold Engine.primed
    rw [h1]
    have hw := h.waitTo
    simp only [Engine.rest, Engine.push, ← hw]
  · rw [he, issueDone_inflight _ hc]
    have : ((((s.eng e).primed u n v).noted u).push o).inflight = (s.eng e).inflight ++ [o] := by
      rw [h2]; simp only [Engine.push, Engine.primed, h1]
    rw [this, h.inflight]; rfl
  · rw [he]; exact issueDone_cycle _ hc _
  · rw [he, if_neg (by omega), issueDone_hold _ hc]
    rw [h2]; simp only [Engine.push, Engine.primed, h1, h.holdDue]
  · exact ⟨ho.1, ho.2.1⟩
  · exact ho.2.2
  · intro j hj
    rw [he, hun, primed_unit_ne _ _ hu hj]
  · rw [he, hun]
    cases hp : lastPort u n with
    | none => rw [primed_unit_none _ _ _ hp]; exact ⟨rfl, rfl⟩
    | some p => rw [primed_unit _ _ hu hu' hp]; exact put_results _ _ _ _
  · intro p hp
    rw [he]
    refine (readSock_unit _ hu (lastPort_le hp) v ((s.eng e).unit u) ?_).trans (hv p hp)
    rw [hun, primed_unit _ _ hu hu' hp]
  · intro p hp2 hp
    rw [he]
    cases hl : lastPort u n with
    | none => exact readSock_congr hu hp2 ((hun u).trans (primed_unit_none _ _ _ hl))
    | some p' =>
      have hne : p ≠ p' := fun h => hp (h ▸ hl)
      exact readSock_put _ _ hu hp2 hne v ((hun u).trans (primed_unit _ _ hu hu' hl)) (lastPort_le hl)

theorem compute_started {s : State} {e : EngineId} (h : Quiet s e) (u n : Nat) (v : Vec)
    (hu : u = 3 ∨ u = 4 ∨ u = 5 ∨ u = 6 ∨ u = 7 ∨ u = 11) (hv : ∀ p, lastPort u n = some p → v &&& portMask u p = v) :
    Started s (s.trigger e u n v) e u n v
      (((s.eng e).primed u n v).compute (((s.eng e).primed u n v).newOp (s.eng e).pc 0 u n false)) := by
  have h3 : 3 ≤ u := by omega
  have hm : isMem u = false := by unfold isMem; rcases hu with rfl | rfl | rfl | rfl | rfl | rfl <;> simp
  have hp : ({ slot := 0, guard := 0, src := .imm v, dunit := u, dport := 64 + n } : Move).priv = false := by
    unfold Move.priv; rcases hu with rfl | rfl | rfl | rfl | rfl | rfl <;> simp [Move.op]
  rw [trigger_quiet h u n v h3 (by omega) hm (by simp [hp]) (by omega), opIssue_eq h u n v h3 (by omega) (by omega),
    startOp_compute _ _ _ _ _ _ hu, State.modEng_eng]
  generalize hs : State.slow _ e = b
  have hk := compute_kept ((s.eng e).primed u n v) (((s.eng e).primed u n v).newOp (s.eng e).pc 0 u n false)
  have := started_of_push h u n v h3 (by omega) hv _ (by omega)
    ⟨hk.1, hk.2.1, hk.2.2.1, hk.2.2.2.1, hk.2.2.2.2.1, hk.2.2.2.2.2.1⟩ b
  rw [State.modEng_modEng (s.modEng e (·.primed u n v))]
  exact this

end Sys2Proof.Machine
end

