-- ==== Sys2Proof/Laws/Mem.lean ====
section
/-!
SUPPORT. Laws/Mem.lean: sparse contents: a read after a write, what a write leaves, and the canonical form that every operation
keeps.
-/
namespace Sys2Proof.Machine

variable {α : Type} [DecidableEq α] (d : Nat → α)

/-! ## Reads after writes -/

theorem smGet_smIns (m : SMap α) (k j : Nat) (w : α) : smGet d (smIns m k w) j = if j = k then w else smGet d m j := by
  induction m with
  | nil => by_cases h : j = k <;> simp [smIns, smGet, h]; omega
  | cons a l ih =>
    obtain ⟨i, v⟩ := a
    simp only [smIns]
    split
    · rename_i e
      by_cases h : j = k
      · simp [smGet, h]
      · simp only [smGet, h, e, if_false, show ¬ k = j from fun x => h x.symm]
    · split
      · by_cases h : j = k
        · simp [smGet, h]
        · simp only [smGet, h, if_false, show ¬ k = j from fun x => h x.symm]
      · simp only [smGet, ih]
        by_cases h : j = k
        · subst h; rename_i h1 h2
          simp [show ¬ i = j from h1]
        · simp [h]

omit [DecidableEq α] in
theorem smGet_smDel (m : SMap α) (k j : Nat) : smGet d (smDel m k) j = if j = k then d k else smGet d m j := by
  induction m with
  | nil => by_cases h : j = k <;> simp [smDel, smGet, h]
  | cons a l ih =>
    obtain ⟨i, v⟩ := a
    simp only [smDel]
    by_cases hi : i = k
    · subst hi
      rw [if_pos rfl, ih]
      by_cases h : j = i
      · simp [h]
      · simp [smGet, h, show ¬ i = j from fun x => h x.symm]
    · rw [if_neg hi]
      simp only [smGet, ih]
      by_cases h : j = k
      · subst h; simp [hi]
      · simp [h]

/-- A read after a write: the value written at its key, what was there at every other. -/
theorem smGet_smPut (m : SMap α) (k j : Nat) (w : α) :
    smGet d (smPut d m k w) j = if j = k then w else smGet d m j := by
  unfold smPut
  split
  · rename_i h; rw [smGet_smDel d]; split <;> simp [h]
  · exact smGet_smIns d m k j w

/-! ## The canonical form -/

theorem smWfFrom_mono {m : SMap α} {lo hi : Nat} (h : smWfFrom d hi m = true) (hl : lo ≤ hi) : smWfFrom d lo m = true := by
  cases m with
  | nil => rfl
  | cons a l =>
    simp only [smWfFrom, Bool.and_eq_true, decide_eq_true_eq] at h ⊢
    exact ⟨⟨by omega, h.1.2⟩, h.2⟩

theorem smIns_wfFrom {m : SMap α} {lo k : Nat} {w : α} (h : smWfFrom d lo m = true) (hk : lo ≤ k) (hw : w ≠ d k) :
    smWfFrom d lo (smIns m k w) = true := by
  induction m generalizing lo with
  | nil => simp [smIns, smWfFrom, hk, hw]
  | cons a l ih =>
    obtain ⟨i, v⟩ := a
    simp only [smWfFrom, Bool.and_eq_true, decide_eq_true_eq] at h
    simp only [smIns]
    split
    · rename_i e; subst e
      simp [smWfFrom, hk, hw, h.2]
    · split
      · simp only [smWfFrom, Bool.and_eq_true, decide_eq_true_eq]
        exact ⟨⟨hk, hw⟩, ⟨⟨by omega, h.1.2⟩, h.2⟩⟩
      · simp only [smWfFrom, Bool.and_eq_true, decide_eq_true_eq]
        exact ⟨h.1, ih h.2 (by omega)⟩

theorem smDel_wfFrom {m : SMap α} {lo : Nat} (k : Nat) (h : smWfFrom d lo m = true) : smWfFrom d lo (smDel m k) = true := by
  induction m generalizing lo with
  | nil => rfl
  | cons a l ih =>
    obtain ⟨i, v⟩ := a
    simp only [smWfFrom, Bool.and_eq_true, decide_eq_true_eq] at h
    simp only [smDel]
    split
    · exact ih (smWfFrom_mono d h.2 (by omega))
    · simp only [smWfFrom, Bool.and_eq_true, decide_eq_true_eq]
      exact ⟨h.1, ih h.2⟩

theorem smPut_wf {m : SMap α} (k : Nat) (w : α) (h : smWf d m = true) : smWf d (smPut d m k w) = true := by
  unfold smPut
  split
  · exact smDel_wfFrom d k h
  · rename_i hw; exact smIns_wfFrom d h (Nat.zero_le k) hw

theorem smFilter_wfFrom {m : SMap α} {lo : Nat} (p : Nat × α → Bool) (h : smWfFrom d lo m = true) :
    smWfFrom d lo (m.filter p) = true := by
  induction m generalizing lo with
  | nil => rfl
  | cons a l ih =>
    obtain ⟨i, v⟩ := a
    simp only [smWfFrom, Bool.and_eq_true, decide_eq_true_eq] at h
    simp only [List.filter_cons]
    split
    · simp only [smWfFrom, Bool.and_eq_true, decide_eq_true_eq]
      exact ⟨h.1, ih h.2⟩
    · exact smWfFrom_mono d (ih h.2) (by omega)

theorem smClear_wf {m : SMap α} (lo hi : Nat) (h : smWf d m = true) : smWf d (smClear m lo hi) = true :=
  smFilter_wfFrom d _ h

/-! ## Memory as bytes -/

theorem memSet_wf {m : Memory} (a : Nat) (b : Byte) (h : m.wf = true) : (memSet m a b).wf = true := smPut_wf emptyByte a b h

theorem memWrite_wf {m : Memory} (a n strobe x : Nat) (h : m.wf = true) : (memWrite m a n strobe x).wf = true := by
  induction n generalizing m a strobe x with
  | zero => exact h
  | succ n ih =>
    simp only [memWrite]
    apply ih
    split
    · exact memSet_wf a _ h
    · exact h

theorem memPut_wf {m : Memory} (a n x : Nat) (h : m.wf = true) : (memPut m a n x).wf = true := memWrite_wf a n _ x h
theorem memClear_wf {m : Memory} (lo hi : Nat) (h : m.wf = true) : Memory.wf (smClear m lo hi) = true :=
  smClear_wf emptyByte lo hi h

theorem memByte_memSet (m : Memory) (a j : Nat) (b : Byte) :
    memByte (memSet m a b) j = if j = a then b else memByte m j := smGet_smPut emptyByte m a j b

/-- What a write under strobes leaves: the byte written where its strobe is set, what was there at every other address. -/
theorem memByte_memWrite (m : Memory) (a n strobe x j : Nat) :
    memByte (memWrite m a n strobe x) j =
      if a ≤ j ∧ j < a + n ∧ strobe / 2 ^ (j - a) % 2 = 1 then BitVec.ofNat 8 (x / 256 ^ (j - a)) else memByte m j := by
  induction n generalizing m a strobe x with
  | zero => simp only [memWrite]; rw [if_neg (by omega)]
  | succ n ih =>
    simp only [memWrite, ih]
    by_cases hj : j = a
    · subst hj
      rw [if_neg (by omega)]
      simp only [Nat.sub_self, Nat.pow_zero, Nat.div_one, Nat.le_refl, true_and]
      by_cases hs : strobe % 2 = 1
      · rw [if_pos hs, if_pos ⟨by omega, hs⟩, memByte_memSet, if_pos rfl]
      · rw [if_neg hs, if_neg (fun y => hs y.2)]
    · have he : memByte (if strobe % 2 = 1 then memSet m a (BitVec.ofNat 8 x) else m) j = memByte m j := by
        split
        · rw [memByte_memSet, if_neg hj]
        · rfl
      rw [he]
      by_cases hl : a + 1 ≤ j
      · have e : j - a = (j - (a + 1)) + 1 := by omega
        rw [e, Nat.pow_succ', Nat.pow_succ', Nat.div_div_eq_div_mul, Nat.div_div_eq_div_mul]
        by_cases hc : j < a + 1 + n ∧ strobe / (2 * 2 ^ (j - (a + 1))) % 2 = 1
        · rw [if_pos ⟨hl, hc⟩, if_pos ⟨by omega, by omega, hc.2⟩]
        · rw [if_neg (fun y => hc y.2), if_neg (fun y => hc ⟨by omega, y.2.2⟩)]
      · rw [if_neg (by omega), if_neg (by omega)]

theorem reset_mem_wf : State.reset.mem.wf = true := rfl
theorem reset_cal_wf : State.reset.cal.wf = true := rfl

end Sys2Proof.Machine
end

