-- ==== Sys2Proof/Laws/Regs.lean ====
section
/-!
SUPPORT. Laws/Regs.lean: stored registers after a write, and what an admitted or a refused register command leaves.
-/
namespace Sys2Proof.Machine

/-! ## Stored registers -/

@[simp] theorem Engine.ioGet_ioPut (g : Engine) (p q : Nat) (v : Word) :
    (g.ioPut p v).ioGet q = if q = p then v else g.ioGet q := smGet_smPut ioReset g.io p q v

theorem State.die_modDie (s : State) (d d' : DieId) (f : Die → Die) :
    (s.modDie d f).die d' = if d' = d then f (s.die d) else s.die d' := by
  unfold State.modDie State.die
  by_cases h : d' = d
  · subst h; simp
  · have : ¬ d.val = d'.val := fun x => h (Fin.ext x.symm)
    simp [h, this]

@[simp] theorem State.dGet_dPut (s : State) (d d' : DieId) (p q : Nat) (v : Word) :
    (s.dPut d p v).dGet d' q = if d' = d ∧ q = p then v else s.dGet d' q := by
  unfold State.dPut State.dGet
  rw [State.die_modDie]
  by_cases h : d' = d
  · subst h; simp [smGet_smPut]
  · simp [h]

/-! ## Register commands -/

theorem regAnswer_ok (s : State) (m : Master) (t : Target) (b : Bool) (v : Nat) :
    s.regAnswer m t b (.ok v) = s.answer (.ok v) := by
  unfold State.regAnswer State.hostAnswer
  split <;> (try rfl)
  split <;> simp_all

theorem ioInfo_decStage : ∀ k : Fin 32, ioInfo (0x100 + k.val) = none := by decide
/-- A register that the checks admit stands under its own name. -/
theorem homeOf_admitted {s : State} {a : Access} {t : Target} {wr : Bool} {r : RegInfo} (h : s.regCheck a t wr = .ok r) :
    homeOf t = t := by
  cases t with
  | io e p =>
    show (if within p 0x100 0x11F then _ else _) = _
    split
    · rename_i hw
      simp only [within, Bool.and_eq_true, decide_eq_true_eq] at hw
      have hk := ioInfo_decStage ⟨p - 0x100, by omega⟩
      rw [show 0x100 + (p - 0x100) = p by omega] at hk
      have ht : targetInfo (.io e p) = none := hk
      unfold State.regCheck at h
      rw [ht] at h
      cases h
    · rfl
  | die d p => rfl
  | bar0 o => rfl

theorem overAlias_ok (a : Access) (v : Nat) : overAlias a (.ok v) = .ok v := by simp [overAlias]

/-- An admitted write of a die register is the register's write, answered. -/
theorem cmdWrite_die {s : State} {m : Master} {d : DieId} {p : Nat} {r : RegInfo} (h : MayWrite s m (.die d p) r) (v : Word) :
    s.cmdWrite m (.die d p) v = (s.dieWrite (accessOf s m) d p r v).answer (.ok 0) := by
  unfold State.cmdWrite
  simp only [homeOf_admitted h.admits, h.reaches, h.ahead, Bool.false_eq_true, if_false]
  unfold State.regWriteBy
  simp only [h.admits, State.regWriteOk, overAlias_ok, regAnswer_ok]

/-- An admitted write of an engine register that is not held. -/
theorem cmdWrite_io {s t : State} {m : Master} {e : EngineId} {p : Nat} {r : RegInfo} (h : MayWrite s m (.io e p) r) (v : Word)
    (n : Nat) (ht : s.ioWrite (accessOf s m) e p r v (outerOf s m) = (.ok n, t)) : s.cmdWrite m (.io e p) v = t.answer (.ok n) := by
  unfold State.cmdWrite
  simp only [homeOf_admitted h.admits, h.reaches, h.ahead, Bool.false_eq_true, if_false]
  unfold State.regWriteBy
  simp only [h.admits, State.regWriteOk, ht, overAlias_ok, regAnswer_ok]

/-- An admitted read of a die register. -/
theorem cmdRead_die {s : State} {m : Master} {d : DieId} {p : Nat} {r : RegInfo} (h : MayRead s m (.die d p) r) :
    s.cmdRead m (.die d p) =
      ((s.dieRead (accessOf s m) d p r).2).answer (.ok (s.dieRead (accessOf s m) d p r).1.toNat) := by
  unfold State.cmdRead
  simp only [homeOf_admitted h.admits, h.reaches]
  unfold State.regRead
  simp only [h.admits, State.regReadOk, overAlias_ok, regAnswer_ok]

/-- An admitted read of an engine register. -/
theorem cmdRead_io {s : State} {m : Master} {e : EngineId} {p : Nat} {r : RegInfo} (h : MayRead s m (.io e p) r) :
    s.cmdRead m (.io e p) = ((s.ioRead e p r).2).answer (.ok (s.ioRead e p r).1.toNat) := by
  unfold State.cmdRead
  simp only [homeOf_admitted h.admits, h.reaches]
  unfold State.regRead
  simp only [h.admits, State.regReadOk, overAlias_ok, regAnswer_ok]

end Sys2Proof.Machine
end

