-- ==== Sys2Proof/WellFormed.lean ====
section
/-!
DEFINITION. WellFormed.lean: the commands that can reach the block: what the manual says of their operands that the types of
Syntax do not say. A meaning is total on the others too; a sender of commands makes none of them.
-/
namespace Sys2Proof

/-- Packet types of Table 10-8. -/
def kindRd : Nat := 0
def kindWr : Nat := 1
def kindRdrsp : Nat := 2
def kindWrrsp : Nat := 3
def kindTimeReq : Nat := 4
def kindTimeRsp : Nat := 5
def kindCommit : Nat := 6
def kindStop : Nat := 7
def kindSetid : Nat := 8

/-- A chain packet of a type: LEN is at most 64 and, but for a read, counts its payload words; a flit index is one of a slot
frame's (R303, R308, R244). -/
def Packet.wf (k : Packet) (kind : Nat) : Bool :=
  k.kind.toNat == kind && decide (k.len.toNat ≤ 64) && decide (k.slot < 160) &&
    (if kind = kindRd then k.data.isEmpty else k.data.length == k.len.toNat)

/-- A front-end block has 64 payload words (R274). -/
def FeBlock.wf (b : FeBlock) : Bool := b.words.length == 64

/-- A register target: an engine port, a die port, or an offset of the host page that is a multiple of 4 (R25, R395). -/
def Target.wf : Target → Bool
  | .io _ p => decide (p < 0x10000)
  | .die _ p => decide (p < 0x10000)
  | .bar0 off => decide (off < 0x1000) && off % 4 == 0

/-- A message of the timed-commit protocol: over the chain it is a COMMIT packet (R312). -/
def CommitSrc.wf : CommitSrc → Bool
  | .unit _ => true
  | .port _ k => k.wf kindCommit

/-- Keys of the memories that carry SECDED words: data scratchpads, instruction scratchpads, Pool (R185). -/
def bankKeyWf (bank : Nat) : Bool :=
  decide (bank < 1600) || (decide (0x10000 ≤ bank) && decide (bank < 0x10000 + 200)) ||
    (decide (0x20000 ≤ bank) && decide (bank < 0x20000 + 96))

/-- A well-formed command. -/
def Instr.wf : Instr → Bool
  | .keeperBoot _ primary backup => decide (primary.length ≤ 0x400000) && decide (backup.length ≤ 0x400000)
  | .fabricTransaction _ port => decide (port < 0x40)
  | .eccTrackerExpiry _ bank word => bankKeyWf bank && decide (word < 262144)
  | .registerWrite _ t _ => t.wf
  | .rcRead _ t => t.wf
  | .engSnapAccess _ _ off _ => decide (off < 0x600) && off % 4 == 0
  | .claim _ _ r => decide (r < 0x70)
  | .release _ _ r => decide (r < 0x70)
  | .hostRequest _ x _ len data => decide (1 ≤ len) && decide (x + len ≤ 2 ^ 31) && decide (data < 2 ^ (8 * len))
  | .slotEntryWrite _ _ _ port i _ => decide (port < 64) && decide (i < 128)
  | .hello _ b => b.wf
  | .d2dBlock _ _ _ b => b.data.length == 256
  | .dataBlock _ b => b.wf
  | .setid _ k => k.wf kindSetid
  | .rd _ k => k.wf kindRd
  | .wr _ k => k.wf kindWr
  | .rdrsp _ k => k.wf kindRdrsp
  | .wrrsp _ k => k.wf kindWrrsp
  | .timeReq _ k => k.wf kindTimeReq
  | .timeRsp _ k => k.wf kindTimeRsp
  | .stop _ k => k.wf kindStop
  | .arm src => src.wf
  | .commitAck src => src.wf
  | .commitNak src => src.wf
  | .commitAbort src => src.wf
  | .exprefPresent hz => decide (0 < hz)
  | _ => true

end Sys2Proof
end

