-- ==== Sys2Proof/Tests/Slice0.lean ====
section
/-!
SUPPORT. Tests/Slice0.lean: ill-formed commands that the check refuses, worked examples of the manual, and a state for the hypotheses
of each statement.
-/
namespace Sys2Proof.Tests
open Sys2Proof Sys2Proof.Machine
set_option Elab.async false

/-! ## States -/

/-- The package after bring-up. -/
def rdy : State := State.reset.bringUp 0
/-- Engine 0 of the Trigger world in mode m at PC 0x100, data-space address 0 of its window being offset 0 of its own scratchpad, with
a stack from 0x1000 down to 0x400. -/
def on (m : Fin 12) (f : Engine → Engine := id) : State :=
  rdy.modEng 0 fun g => f { ((((g.ioPut 0xA00 18#32).ioPut 0xA04 0x10000000#32).ioPut 0xA0C 0xF#32).ioPut 0x8C0 0x01230001#32) with
    mode := m, world := .T, pc := 0x100, everRun := true, ssp := 0x1000, sbase := 0x1000, slimit := 0x400 }
/-- The engine in MD2, and the outcome of a command. -/
def md2 : State := on 2
def after (c : Instr) (s : State) : State := match exec c s with | .next t => t | _ => s
/-- An operation in flight, one cycle from its end. -/
def flying (u : Nat) (act : OpAct) : Op := { id := 0, unit := u, opcode := 0, slot := 0, pc := 0, age := 0, lat := 1, act := act }
/-- An engine whose operation is in flight. -/
def busy (o : Op) : State := on 2 fun g => { g with inflight := [o], cycleOpen := false }

/-! ## Ill-formed commands -/

def pkt (kind : BitVec 4) (data : List Word) : Packet := sealPkt {
  dst := 0, src := 3, vc := 2, kind := kind, len := BitVec.ofNat 8 data.length, reqid := 7, status := 0, tok := none, bcast := false
  posted := false, hops := 0, addr := 0x100, data := data, crc := 0, slot := 0 }

theorem test_wf_image (l : List Byte) (h : 0x400000 < l.length) : Instr.wf (.keeperBoot true l []) = false := by
  show (decide (l.length ≤ 0x400000) && decide (0 ≤ 0x400000)) = false
  rw [decide_eq_false (Nat.not_le.mpr h)]; rfl
theorem test_wf_port : Instr.wf (.fabricTransaction 0 0x40) = false := by decide
theorem test_wf_tracker : Instr.wf (.eccTrackerExpiry 0 1600 0) = false ∧ Instr.wf (.eccTrackerExpiry 0 0 262144) = false := by decide
theorem test_wf_target : Instr.wf (.registerWrite (.pio 0) (.io 0 0x10000) 0) = false ∧ Instr.wf (.rcRead (.pio 0) (.bar0 6)) = false := by
  decide
theorem test_wf_window : Instr.wf (.engSnapAccess (.pio 0) 0 0x600 none) = false ∧ Instr.wf (.engSnapAccess (.pio 0) 0 2 none) = false := by
  decide
theorem test_wf_claim : Instr.wf (.claim (.pio 0) 0 0x70) = false ∧ Instr.wf (.release (.pio 0) 0 0x70) = false := by decide
theorem test_wf_host : Instr.wf (.hostRequest 0 0 false 0 0) = false ∧ Instr.wf (.hostRequest 0 0 true 1 256) = false := by decide
theorem test_wf_slot : Instr.wf (.slotEntryWrite (.pio 0) 0 0 64 0 0) = false ∧ Instr.wf (.slotEntryWrite (.pio 0) 0 0 0 128 0) = false := by
  decide
theorem test_wf_block : Instr.wf (.hello 0 { words := [0], trailer := 0 }) = false ∧
    Instr.wf (.dataBlock 0 { words := [], trailer := 0 }) = false := by decide
theorem test_wf_packet : Instr.wf (.setid 0 (pkt 7 [1])) = false ∧ Instr.wf (.rd 0 (pkt 0 [1])) = false ∧
    Instr.wf (.wr 0 { pkt 1 [1] with len := 2 }) = false ∧ Instr.wf (.rdrsp 0 (pkt 3 [])) = false ∧
    Instr.wf (.wrrsp 0 { pkt 3 [] with slot := 160 }) = false := by decide
theorem test_wf_time : Instr.wf (.timeReq 0 (pkt 5 [])) = false ∧ Instr.wf (.timeRsp 0 (pkt 4 [])) = false ∧
    Instr.wf (.stop 0 (pkt 8 [])) = false := by decide
theorem test_wf_commit : Instr.wf (.arm (.port 0 (pkt 7 []))) = false ∧ Instr.wf (.commitAck (.port 0 (pkt 7 []))) = false ∧
    Instr.wf (.commitNak (.port 0 (pkt 7 []))) = false ∧ Instr.wf (.commitAbort (.port 0 (pkt 7 []))) = false := by decide
theorem test_wf_reference : Instr.wf (.exprefPresent 0) = false := by decide
theorem test_wf_good : Instr.wf (.add 0 0 5) = true ∧ Instr.wf (.rd 0 { pkt 0 [] with len := 2 }) = true ∧
    Instr.wf (.fabricTransaction 0 0x3F) = true := by decide

/-! ## Worked examples of the manual -/

/-- The result of the operation that a command starts on an engine. -/
def resultOf (c : Instr) (s : State) : Option (Vec × BitVec 4) := ((after c s).eng 0).inflight.head?.map fun o => (o.q, o.flags)
/-- MD2 with operand ports a and c of a unit. -/
def ports (u : Nat) (a c : Vec) : State := on 2 fun g => { g with units := g.units.setIfInBounds u { g.unit u with a := a, c := c } }

theorem test_example_4_1_neg : resultOf (.neg 0 0 0x80000000) md2 = some (0x80000000, 1) := by rfl
theorem test_example_4_1_sar : resultOf (.sar 0 1 0x120) (ports 4 0x80000000 0) = some (0xFFFFFFFF, 0) := by rfl
theorem test_example_4_1_negs : resultOf (.negs 0 1 0x80000000) md2 = some (0x7FFFFFFF, 8) := by rfl
theorem test_example_4_2 : resultOf (.mulq31 0 1) (ports 5 0x40000000 0) = some (0, 0) ∧
    resultOf (.mulq31 0 3) (ports 5 0x40000000 0) = some (2, 0) := by constructor <;> rfl
theorem test_example_4_3 : resultOf (.divs 0 2) (ports 6 0xFFFFFFF9 0) = some (0xFFFFFFFD, 0) ∧
    resultOf (.divu 0 0) (ports 6 0x1234 0) = some (0xFFFFFFFF, 4) := by constructor <;> rfl
theorem test_example_4_4 : resultOf (.ext 0 0x81C) (ports 7 0xDEADBEEF 0) = some (0xD, 0) ∧
    resultOf (.exts 0 0x81C) (ports 7 0xDEADBEEF 0) = some (0xFFFFFFFD, 0) ∧
    resultOf (.ins 0 0x81C) (ports 7 0xDEADBEEF 0xA5) = some (0x5EADBEEF, 0) := by refine ⟨?_, ?_, ?_⟩ <;> rfl
theorem test_perm : resultOf (.perm 0 0x847) (ports 7 0x44332211 0x88776655) = some (0x11005588, 0) := by rfl
theorem test_example_5_1 : resultOf (.vmulq 0 .h 0x600020007FFF80000003000100030001) (ports 11 0x000520007FFF8000C000C00040004000 0) =
    some (0x000408007FFE7FFFFFFE000000020000, 8) := by rfl
/-- Example 4-5: the bytes 11 to 88 at offset 0x100, on an engine whose latencies do not depend on the stepping. -/
def ex45 : State := { on 8 with mem := memPut (on 8).mem 0x10000100 8 0x8877665544332211 }
/-- Engine 0 passes n schedule cycles in which it issues nothing. -/
def later (n : Nat) (s : State) : State :=
  (List.range n).foldl (fun s _ => after (.resultDelivery 0) (s.modEng 0 fun g => { g with cycleOpen := false })) s
theorem test_example_4_5 : (((later 3 (after (.ldw 0 0x102) ex45)).eng 0).unit 9).q = 0x66554433 ∧
    (((later 3 (after (.ldWr 0 0x102) ex45)).eng 0).unit 9).q = 0x22114433 := by constructor <;> decide +kernel
theorem test_example_4_5_store :
    memNat (later 1 (after (.stb 0 0x102) ex45)).mem 0x10000100 8 =
      0x8877665544002211 := by decide +kernel
/-- Example 3-1: the bundle by its slots and header. -/
def ex31 : W256 := BitVec.ofNat 256 (0x0915801C + 0x123 * 2 ^ 30 + 0x4600 * 2 ^ 60 + 0x2081100 * 2 ^ 90 + 0x20000000 * 2 ^ 120 +
  0x20000000 * 2 ^ 150 + 0x20000000 * 2 ^ 180 + 0x20000000 * 2 ^ 210 + 0x301 * 2 ^ 240)
theorem test_example_3_1 : decodeBundle ex31 = { timed := true, moves := [
    { slot := 0, guard := 2, src := .imm 0x123456, dunit := 0, dport := 7 },
    { slot := 2, guard := 0, src := .sock 0 1, dunit := 3, dport := 0 },
    { slot := 3, guard := 0, src := .imm 0x20, dunit := 8, dport := 64 }] } := by decide +kernel
theorem test_example_3_1_bytes : ex31.toNat % 2 ^ 64 = 0x48C915801C := by rfl
/-- Example 16-1: ENG_START of engine 21, and HEL_STAT, in the register aliases. -/
theorem test_example_16_1 : place 0x18150B10 4 = some (.reg (.io 21 0xB10)) ∧ place 0x1F005004 4 = some (.reg (.die newt0 0x5004)) := by
  constructor <;> rfl
theorem test_crc : crc32c ([0x31, 0x32, 0x33, 0x34, 0x35, 0x36, 0x37, 0x38, 0x39].map (BitVec.ofNat 8)) = 0xE3069283#32 := by decide +kernel

/-- Example 9-1: the patterns, their elements from layer 0, and the event when its end marker is at the front of the queue. -/
def record (els : List Nat) (attr : Nat) : W256 := BitVec.ofNat 256 (els.foldr (fun x n => x + n * 2 ^ 16) (attr + 2 ^ 32))
def pat18 : W256 := record [0x6127, 0x0233, 0x0341, 0x0455, 0x0567, 0x0601, 0x0789, 0x68A7] 0x00180A01
def ex91 : State :=
  let s := (((rdy.dPut 1 0x6000 0x81000600#32).dPut 1 0x61A4 0xF00#32).dPut 1 0x6014 0x80000022#32)
  { s with chanMask := BitVec.ofNat 144 (2 ^ 40), fc := 1006, fox := s.fox.set 1 { s.fox[(1 : Fin 6)] with
    online := 0xFD, queue := [(0x800005A3#32, true, 1006)]
    array := [(16, record [0x0120, 0x4230, 0x0340, 0x6450, 0x0567, 0x0600, 0x8780, 0x08A0] 0x00160A01),
      (17, record [0x0121, 0x0233, 0x2340, 0x6460, 0x4560, 0x0601, 0x0789, 0x0900] 0x00170A01), (18, pat18), (4099, pat18)]
    ctxs := [{ hits := [(0, 0x120), (1, 0x233), (2, 0x341), (3, 0x455), (4, 0x567), (6, 0x789), (7, 0x8A0), (7, 0x900)]
               segon := 0xFD, out := none, ready := 0 }] } }
theorem test_example_9_1 : (after (.endMarker 1) ex91).fox[(1 : Fin 6)].ctxs.map (fun c => (c.out, c.ready)) =
    [(some [0x00160A01002005A347DB0010#128, 0x00180A01002005A348DF0012, 0x00000006FD2005A380000002, 0], 1070)] := by rfl


/-! ## A state for the hypotheses of each statement -/

/-- A register that a master may write, or read, now. -/
def CanWrite (s : State) (m : Master) (t : Target) : Prop := ∃ r, MayWrite s m t r
def CanRead (s : State) (m : Master) (t : Target) : Prop := ∃ r, MayRead s m t r
/-- The engine's state with bytes in its scratchpad, at an offset. -/
def holding (s : State) (off n v : Nat) : State := { s with mem := memPut s.mem (0x10000000 + off) n v }
/-- A package in which nothing asks the fabric. -/
theorem idle_of {s : State} {who : Option EngineId} (h : s.beats = [] ∧ (∀ n : Fin 2, s.groups[n] = []) ∧
    (∀ (d : DieId) (p : Fin 6), (s.die d).d2d[p].down = false ∧ (s.die d).d2d[p].waiting = false) ∧
    (∀ d, (s.die d).granted = [] ∧ s.slotsApply d = false) ∧ ∀ f : EngineId, who ≠ some f → (s.eng f).fabQ = []) : FabricIdle s who where
  beats := h.1
  groups := h.2.1
  links := h.2.2.1
  grants d t := by rw [(h.2.2.2.1 d).1]; exact (Nat.succ_ne_zero _).symm
  free d t := by unfold State.reservedFor State.reservedAt; rw [(h.2.2.2.1 d).2]; rfl
  others := h.2.2.2.2
/-- An engine's operation alone in flight. -/
theorem alone_of {o : Op} (h : o.uses = [] ∧ o.fault = none) : Alone (busy o) 0 o where
  running := rfl
  cycle := rfl
  bubbles := rfl
  holdDue := rfl
  portB := rfl
  only := rfl
  uses := by rw [h.1]; exact List.nodup_nil
  sound := h.2
/-- The engine holds a bundle at its PC. -/
def bundleAt (b : Bundle) (s : State) : Prop := ∃ w, s.fetch 0 = (.bundle w, s) ∧ decodeBundle w = b

theorem witness_quiet : Quiet md2 0 := by constructor <;> rfl
/-- alu_results, mul_results, div_results, bfu_results, vec_elements, vec_plain, control_transfers, special_units. -/
theorem witness_quiet_modes : Quiet (on 3) 0 ∧ Quiet (on 4) 0 ∧ Quiet (on 8) 0 := by and_intros <;> constructor <;> rfl
/-- Delivery in the last cycle, and before it. -/
def o1 : Op := { flying 3 .writeQ with flags := 1, trapAt := some 1 }
theorem witness_result_delivery : Alone (busy o1) 0 o1 ∧ ((busy o1).eng 0).owed = [] ∧ o1.age + 1 = o1.lat ∧ o1.act = .writeQ :=
  ⟨alone_of ⟨rfl, rfl⟩, rfl, rfl, rfl⟩
theorem witness_result_delivery_early : let o := { flying 6 .writeQQ with lat := 34 }
    Alone (busy o) 0 o ∧ ((busy o).eng 0).owed = [] ∧ o.age + 1 < o.lat ∧ o.act = .writeQQ := ⟨alone_of ⟨rfl, rfl⟩, rfl, by decide, rfl⟩
def lateHolds (a : OpAct) : Prop := let o := flying 13 a
  Alone (busy o) 0 o ∧ (busy o).ecc = [] ∧ o.age + 1 = o.lat
theorem witness_late_effects : lateHolds (.sysWr 1 5) ∧ lateHolds (.sysWr 5 0x7FFFF) ∧ lateHolds (.sysWr 6 0) ∧ lateHolds (.sysWr 7 1) ∧
    lateHolds (.ixuWr 0x7FFF 3) ∧ lateHolds (.ixuRd 0x7FFF) ∧ lateHolds (.setl 9) := by
  and_intros <;> first | exact alone_of ⟨rfl, rfl⟩ | rfl
theorem witness_late_effects_early (a : OpAct) (h : a ∈ [OpAct.sysWr 5 64, .ixuWr 0x7FFF 3, .ixuRd 0, .setl 9]) :
    let o := { flying 13 a with lat := 6 }
    Alone (busy o) 0 o ∧ o.age + 1 < o.lat ∧ ((∃ n w, o.act = .sysWr n w) ∨ (∃ k w, o.act = .ixuWr k w) ∨ (∃ k, o.act = .ixuRd k) ∨
      ∃ w, o.act = .setl w) := by
  refine ⟨alone_of ⟨rfl, rfl⟩, (show 0 + 1 < 6 by decide), ?_⟩
  simp only [List.mem_cons, List.not_mem_nil, or_false] at h
  rcases h with rfl | rfl | rfl | rfl <;> simp [flying]
theorem witness_stack : StackOk md2 0 0x1000 := by constructor <;> first | rfl | decide +kernel | exact fun _ => rfl
/-- A gate list of two gates at 0x800: number 0 without a handler and number 1 for every level and world. -/
def gates : State := holding ((md2.n0Put 0x7660 0x80000800#32).n0Put 0x7664 2#32) 0x810 16 0x30456
theorem witness_gate_calls : Quiet gates 0 ∧ StackOk gates 0 0x1000 ∧ gates.world 0 = .T ∧ 1 < fld (gates.n0 0x7664) 8 0 ∧
    (gates.n0 0x7660).getLsbD 31 = true ∧ fld (gates.n0 0x7660) 17 4 * 16 + 16 * 1 = 0x810 ∧
    (∀ b ∈ banksOf (ownAddr 0 0x810) 16, gates.bankAdmits 0 b (.eng 0) = true) ∧
    (gates.ownWord 0 0x810).getLsbD 16 = true ∧ (gates.ownWord 0 0x810).getLsbD 17 = true ∧ fld (gates.ownWord 0 0x810) 15 12 = 0 ∧
    fld (gates.ownWord 0 0x810) 31 18 = 0 ∧ fld (gates.ownWord 0 0x814) 31 19 = 0 ∧ gates.ownWord 0 0x818 = 0 ∧
    fld (gates.ownWord 0 0x81C) 31 16 = 0 := by
  refine ⟨by constructor <;> rfl, by constructor <;> first | rfl | decide +kernel | exact fun _ => rfl, ?_⟩
  and_intros <;> first | rfl | decide +kernel
theorem witness_gate_calls_checked : gates.gateAsk 0 1 = none ∧
    ∃ d, ((gates.gateWait 0 1).gateCheck 0 1).1 = .ok d ∧ (d.getD 1 0).getLsbD 31 = false := ⟨rfl, _, rfl, rfl⟩
theorem witness_gate_calls_refused : fld (gates.n0 0x7664) 8 0 ≤ 2 ∧ gates.gateAsk 0 2 = none ∧
    ((gates.gateWait 0 2).gateCheck 0 2).1 = .error (0, .fail 1) := ⟨by decide +kernel, rfl, rfl⟩
/-- A slot: guard, source (a socket's number, or 0x800 and a short immediate), destination unit and port. -/
def mv (guard src dunit dport : Nat) : Nat := guard * 2 ^ 26 + src * 2 ^ 14 + (dunit * 128 + dport) * 4
/-- The words of bundles with these slots, empty above them, and these headers, from PC 0x100 on. -/
def codes (bs : List (List Nat × Nat)) (g : Engine) : Engine :=
  { g with imem := ((List.range bs.length).zip bs).flatMap fun b =>
      let w := (List.range 8).foldl (fun n i => n + b.2.1.getD i 0x20000000 * 2 ^ (30 * i)) (b.2.2 * 2 ^ 240)
      (List.range 8).map fun i => (0x800 + 8 * b.1 + i, BitVec.ofNat 32 (w / 2 ^ (32 * i))) }
def code (slots : List Nat) (hdr : Nat) : Engine → Engine := codes [(slots, hdr)]
/-- An enabled interrupt that is pending, line 17, and a bundle without moves. -/
def irq (f : Engine → Engine) : State := on 2 fun g => f (code [] 0 ((g.ioPut 0x8C4 0x20000#32).ioPut 0x8CC 0x20000#32))
/-- A supervisor engine at a PC that its mode does not run. -/
def badPc (f : Engine → Engine) : State := on 2 fun g => f { g with pc := 0x80000012 }
def entryEvent (s : State) (v : Event) : Prop := (s.eng 0).running = true ∧ (s.eng 0).returning = none ∧
  (s.eng 0).cycleOpen = true ∧ (s.eng 0).inflight = [] ∧ (∀ x ∈ (s.eng 0).owed, 1 ≤ x.age) ∧ (s.eng 0).capErr = none ∧
  (∃ w, s.next 0 = (.event v, s.modEng 0 fun h => { h with fetched := w })) ∧ v.stack = none ∧ v.rteBad = 0
/-- A trap owed by the last bundle but one, of a negt in its slot 2. -/
def trapOwed : Owed := { id := 0, age := 1, dist := 1, pc := 0xFE, unit := 3, opcode := 11, slot := 2, flags := 1 }
def owing (m : Fin 12) (f : Engine → Engine := id) : State := on m fun g => f { g with owed := [trapOwed] }
theorem refetched (s : State) (w : W256) (h : (s.eng 0).fetched = w) : s = s.modEng 0 fun g => { g with fetched := w } := by
  subst h
  show s = { s with engines := s.engines.set 0 s.engines[(0 : EngineId)] }
  rw [show s.engines.set 0 s.engines[(0 : EngineId)] = s.engines from Vector.set_getElem_self (by decide)]
/-- What is due at an entry point, after a fetch that kept w. -/
theorem entryEvent_of {s : State} {v : Event} {w : W256} (h : (s.eng 0).running = true ∧ (s.eng 0).returning = none ∧
    (s.eng 0).cycleOpen = true ∧ (s.eng 0).inflight = [] ∧ (∀ x ∈ (s.eng 0).owed, 1 ≤ x.age) ∧ (s.eng 0).capErr = none ∧
    s.next 0 = (.event v, s) ∧ (s.eng 0).fetched = w ∧ v.stack = none ∧ v.rteBad = 0) : entryEvent s v :=
  ⟨h.1, h.2.1, h.2.2.1, h.2.2.2.1, h.2.2.2.2.1, h.2.2.2.2.2.1, ⟨w, h.2.2.2.2.2.2.1.trans (by rw [← refetched s w h.2.2.2.2.2.2.2.1])⟩,
    h.2.2.2.2.2.2.2.2⟩
theorem witness_exception_entry : entryEvent (irq id) { cause := 0x91, faddr := 0, cdetail := 0, pc := 0x100 } ∧ StackOk (irq id) 0 0x1000 :=
  ⟨⟨rfl, rfl, rfl, rfl, fun _ h => (nomatch h), rfl, ⟨_, rfl⟩, rfl, rfl⟩, by constructor <;> first | rfl | decide +kernel | exact fun _ => rfl⟩
theorem witness_exception_entry_trap : ∃ v, entryEvent (owing 2) v ∧ StackOk (owing 2) 0 0x1000 :=
  ⟨_, entryEvent_of ⟨rfl, rfl, rfl, rfl, by decide +kernel, rfl, rfl, rfl, rfl, rfl⟩,
    by constructor <;> first | rfl | decide +kernel | exact fun _ => rfl⟩
theorem witness_exception_entry_slot : ∃ v, let s := badPc fun g => { g.ioPut 0x8D8 7#32 with ssp := 0x1004 }
    entryEvent s v ∧ s.ecc = [] ∧ ((s.eng 0).ioGet 0x8D8).getLsbD 3 = false :=
  ⟨_, entryEvent_of ⟨rfl, rfl, rfl, rfl, fun _ h => (nomatch h), rfl, rfl, rfl, rfl, rfl⟩, rfl, rfl⟩
theorem witness_exception_entry_full : ∃ v, let s := badPc fun g => { g.ioPut 0x8D8 15#32 with ssp := 0x1004 }
    entryEvent s v ∧ ∀ k, k < 4 → ((s.eng 0).ioGet 0x8D8).getLsbD k = true :=
  ⟨_, entryEvent_of ⟨rfl, rfl, rfl, rfl, fun _ h => (nomatch h), rfl, rfl, rfl, rfl, rfl⟩, by decide⟩
theorem witness_entry_events_pc : (badPc id).throttledOut 0 = false ∧ ((badPc id).eng 0).pc.getLsbD 31 = true ∧
    throughput ((badPc id).eng 0).mode = false := by and_intros <;> rfl
theorem witness_entry_events : bundleAt {} (irq id) ∧ ((irq id).eng 0).ie = true ∧ ((irq id).eng 0).waitTo = none ∧
    ((irq id).eng 0).hazOn = false ∧ (((irq id).eng 0).ioGet 0x8CC &&& ((irq id).eng 0).ioGet 0x8C4).getLsbD 17 = true := by
  refine ⟨⟨_, rfl, by decide +kernel⟩, rfl, rfl, rfl, rfl⟩
theorem witness_entry_events_trap (m : Fin 12) (h : m = 2 ∨ m = 5) : ((owing m).eng 0).owed = [trapOwed] ∧ 1 ≤ trapOwed.age ∧
    ((owing m).eng 0).running = true ∧ (owing m).throttledOut 0 = false := by rcases h with rfl | rfl <;> and_intros <;> first | rfl | decide
/-- A frame at 0x800: PC 0x222, STAT with IE and supervisor level, LC 9, SSP 0x840. -/
def framed : State := holding (on 2 fun g => { g with ssp := 0x800, depth := 2, sup := true }) 0x800 64
  (0x222 + (0x500 ||| 0x5) * 2 ^ 32 + 9 * 2 ^ 160 + 0x840 * 2 ^ 192)
theorem witness_return_from_exception : Quiet framed 0 ∧ (framed.eng 0).ssp.toNat % 64 = 0 ∧ (framed.eng 0).slimit.toNat ≤ 0x800 ∧
    0x840 ≤ (framed.eng 0).sbase.toNat ∧ framed.ecc = [] ∧ (∀ b, framed.borrowed 0 b = false) ∧ (framed.eng 0).sup = true ∧
    (framed.eng 0).late = [] ∧ (framed.ownWord 0 0x804).getLsbD 9 = ((framed.eng 0).world == .H) ∧
    (framed.ownWord 0 0x804).getLsbD 8 = true ∧ 2 ≤ (framed.eng 0).depth ∧ ∀ i ∈ [8, 9, 10, 11, 12, 13],
      (framed.ownWord 0 (0x800 + 4 * i)).getLsbD 31 = false := by
  refine ⟨by constructor <;> rfl, ?_⟩
  and_intros <;> first | decide +kernel | exact fun _ => rfl
/-- loads, stores, vector_memory, vector_structures: an access within a doubleword and one that crosses it, at the first and the last
bytes of the bank, and of the kinds of an element sequence. -/
theorem witness_own (acc : Nat) (h : acc = accLoad ∨ acc = accStore) : OwnAt md2 0 0x102 4 acc 0x10000102 ∧
    OwnAt md2 0 0x106 2 acc 0x10000106 ∧ OwnAt md2 0 0x108 2 acc 0x10000108 ∧ OwnAt md2 0 0 16 acc 0x10000000 ∧
    OwnAt md2 0 0x3FFF8 8 acc 0x1003FFF8 ∧ OwnAt md2 0 0x3FFF0 16 acc 0x1003FFF0 := by
  rcases h with rfl | rfl <;> and_intros <;> constructor <;> first | exact ⟨_, rfl⟩ | rfl | decide +kernel
/-- A load that delivers, of the two units. -/
theorem witness_loads_end : let o := { flying 9 (.seq true [] [0x3344, 0x55]) with age := 2, lat := 3, opcode := 4, arg := 0x106 }
    let v := { flying 10 (.seq true [] [7]) with age := 3, lat := 4, opcode := 2 }
    Alone (busy o) 0 o ∧ o.age + 1 = o.lat ∧ lsuFirst 4 (BitVec.ofNat 32 o.arg) = 2 ∧ 0x3344 < 256 ^ 2 ∧ Alone (busy v) 0 v ∧ v.age + 1 = v.lat :=
  ⟨alone_of ⟨rfl, rfl⟩, rfl, rfl, by decide, alone_of ⟨rfl, rfl⟩, rfl⟩
/-- A structure load in its last two cycles, its first and its last access. -/
theorem witness_vector_structures : Alone (busy (flying 10 (.vstruct 15 [1, 2]))) 0 (flying 10 (.vstruct 15 [1, 2])) ∧
    Alone (busy (flying 10 (.vstruct 15 [1, 2, 3, 4]))) 0 (flying 10 (.vstruct 15 [1, 2, 3, 4])) ∧
    (let o := { flying 10 (.vstruct 13 [1, 2, 3]) with age := 1 }; Alone (busy o) 0 o ∧ o.age = o.lat) :=
  ⟨alone_of ⟨rfl, rfl⟩, alone_of ⟨rfl, rfl⟩, alone_of ⟨rfl, rfl⟩, rfl⟩
def structPart (k : Nat) : MemPart := {
  va := 0x100 + BitVec.ofNat 32 (16 * k), len := 16, strobe := fullStrobe 16, data := 0, elem := k, spot := .own (0x10000100 + 16 * k) }
theorem witness_vector_structures_parts (n : Nat) (h : n = 0 ∨ n = 1) :
    let ps := if n = 0 then [structPart 1] else []
    let o := { flying 10 (.seq true (structPart n :: ps) (List.replicate n 9)) with age := n, lat := 5, opcode := 16 + vsCode .w }
    Alone (busy o) 0 o ∧ (busy o).ecc = [] ∧ o.opcode = 16 + 3 * 0 + vsCode .w ∧ o.shadow = [] ∧ o.age = (structPart n).elem ∧
      (∀ q ∈ ps, (structPart n).elem < q.elem ∧ ∃ y, q.spot = .own y) ∧ o.age + 1 < o.lat ∧ (∀ v ∈ List.replicate n 9, v < 2 ^ 128) ∧
      (List.replicate n 9).length + ps.length + 1 = 2 := by
  rcases h with rfl | rfl <;> refine ⟨alone_of ⟨rfl, rfl⟩, rfl, rfl, rfl, rfl, ?_, by decide, by decide, rfl⟩
  · intro q hq; rw [List.mem_singleton.mp hq]; exact ⟨by decide, _, rfl⟩
  · exact fun _ h => nomatch h
/-- An element of a gather, of a scatter and of the end of a gather. -/
theorem witness_vector_structures_element (load : Bool) : let p : MemPart := {
      va := 0x100, len := 4, strobe := fullStrobe 4, data := 5, elem := 0, spot := .own 0x10000100 }
    let o := { flying 10 (.seq load [p] []) with age := 2, lat := 19, opcode := if load then 34 else 42 }
    Alone (busy o) 0 o ∧ o.unit = 10 ∧ (busy o).ecc = [] ∧ o.opcode = (if load then 32 else 40) + vsCode .w ∧ o.shadow = [] ∧
      3 ≤ o.age + 1 ∧ o.age + 1 < o.lat ∧ p.bad = none ∧ p.spot = .own 0x10000100 := by
  cases load <;> exact ⟨alone_of ⟨rfl, rfl⟩, rfl, rfl, rfl, rfl, by decide, by decide, rfl, rfl⟩
theorem witness_vector_structures_end : let o := { flying 10 (.seq true [] [1, 2, 3, 4]) with age := 18, lat := 19, opcode := 34 }
    Alone (busy o) 0 o ∧ o.opcode = 32 + vsCode .w ∧ [1, 2, 3, 4].length = vsCount .w ∧ o.age + 1 = o.lat :=
  ⟨alone_of ⟨rfl, rfl⟩, rfl, rfl, rfl⟩
/-- A port without a register, one of the engine, and one of the die; an access admitted and one refused. -/
theorem witness_port_access : pioTarget 0 0xFFFC = none ∧ pioTarget 0 0x800 = some (.io 0 0x800) ∧ pioLocal 0 (.io 0 0x800) = true ∧
    (∃ t0 r, pioTarget 0 0x5004 = some t0 ∧ pioLocal 0 t0 = false ∧ targetInfo t0 = some r) ∧
    (∀ wr, ∃ r, md2.regCheck { accessOf md2 (.pio 0) with sup := true } (.io 0 0x800) wr = .ok r) ∧
    (∀ wr, ∃ x, md2.regCheck { accessOf md2 (.pio 0) with sup := false } (.io 0 0x800) wr = .error x) := by
  refine ⟨by decide +kernel, rfl, rfl, ⟨_, _, rfl, rfl, rfl⟩, fun wr => ?_, fun wr => ?_⟩ <;> cases wr <;> exact ⟨_, rfl⟩
theorem witness_port_access_late : let o := { flying 12 (.pioIn 0x800) with lat := 4 }
    let u := { flying 12 (.pioOut 0x8C4 7) with age := 3, lat := 4 }
    Alone (busy o) 0 o ∧ o.age = 0 ∧ Alone (busy u) 0 u ∧ u.age + 1 = u.lat ∧ 1 < u.lat :=
  ⟨alone_of ⟨rfl, rfl⟩, rfl, alone_of ⟨rfl, rfl⟩, rfl, by decide⟩
theorem witness_special_units_user : let s := on 2 fun g => { g with sup := false }
    Quiet s 0 ∧ (s.eng 0).sup = false ∧ StackOk s 0 0x1000 := by
  refine ⟨by constructor <;> rfl, rfl, by constructor <;> first | rfl | decide +kernel | exact fun _ => rfl⟩
/-- r5 := r6, r6 := 3, and, where p1 is 0, p2 := p1. -/
def swapping : State := on 2 (code [mv 0 6 0 5, mv 0 0x803 0 6, mv 9 257 2 2] 0)
theorem witness_bundle_issue : Quiet swapping 0 ∧ (swapping.eng 0).single ∧ (swapping.eng 0).repLeft = none ∧ bundleAt {
    moves := [{ slot := 0, guard := 0, src := .sock 0 6, dunit := 0, dport := 5 }, { slot := 1, guard := 0, src := .imm 3, dunit := 0, dport := 6 },
      { slot := 2, guard := 9, src := .sock 2 1, dunit := 2, dport := 2 }] } swapping := by
  refine ⟨by constructor <;> rfl, ?_, rfl, _, rfl, by decide +kernel⟩
  unfold Engine.single; decide
/-- alu1.a := 7 and the trigger of add from r31, under a guard that holds and under one that does not. -/
theorem witness_bundle_issue_trigger (guard : Nat) (h : guard = 0 ∨ guard = 8) : let s := on 2 (code [mv 0 0x807 4 0, mv guard 31 4 64] 0)
    Quiet s 0 ∧ bundleAt { moves := [{ slot := 0, guard := 0, src := .imm 7, dunit := 4, dport := 0 },
      { slot := 1, guard := guard, src := .sock 0 31, dunit := 4, dport := 64 }] } s := by
  rcases h with rfl | rfl <;> exact ⟨by constructor <;> rfl, _, rfl, by decide +kernel⟩
/-- A repeated bundle, one of REPN 63, at their first and at a later iteration. -/
theorem witness_bundle_issue_repeat (f : Engine → Engine) (h : f = id ∨ f = fun g => { g with repResume := 3 }) :
    let s := on 2 fun g => f (code [] (62 * 2 ^ 10) g)
    let u := on 2 fun g => f (code [mv 0 0x807 0 31] (63 * 2 ^ 10) { g with lc := 1 })
    Quiet s 0 ∧ bundleAt { repn := 62 } s ∧ Quiet u 0 ∧ (u.eng 0).lc = 1 ∧
      bundleAt { repn := 63, moves := [{ slot := 0, guard := 0, src := .imm 7, dunit := 0, dport := 31 }] } u := by
  rcases h with rfl | rfl <;>
    exact ⟨by constructor <;> rfl, ⟨_, rfl, by decide +kernel⟩, by constructor <;> rfl, rfl, _, rfl, by decide +kernel⟩
theorem witness_bundle_issue_later : let s := on 2 fun g => { code [] (5 * 2 ^ 10) g with
      repLeft := some 1, fetched := (code [] (5 * 2 ^ 10) g).fetchView.bundleAt 0x100 }
    Quiet s 0 ∧ bundleAt { repn := 5 } s := ⟨by constructor <;> rfl, _, rfl, by decide +kernel⟩
/-- r5 := r6 and r7 := r8 in two bundles. -/
theorem witness_bundle_issue_pair (np : Bool) : let s := on 4 fun g =>
      (codes [([mv 0 6 0 5], if np then 2 ^ 7 else 0), ([mv 0 8 0 7], 0)] g).ioPut 0x800 1#32
    let g := s.eng 0
    Quiet s 0 ∧ throughput g.mode = true ∧ g.diEn = true ∧ s.throttled = false ∧ s.ecc = [] ∧ g.repLeft = none ∧ g.pc.toNat < 0xFFF ∧
    decodeBundle (g.fetchView.bundleAt (fld g.pc 11 0)) = { np := np, moves := [{ slot := 0, guard := 0, src := .sock 0 6, dunit := 0, dport := 5 }] } ∧
    decodeBundle (g.fetchView.bundleAt (fld g.pc 11 0 + 1)) = { moves := [{ slot := 0, guard := 0, src := .sock 0 8, dunit := 0, dport := 7 }] } := by
  cases np <;> refine ⟨by constructor <;> rfl, rfl, rfl, rfl, rfl, rfl, by decide +kernel, ?_, ?_⟩ <;> decide +kernel
def refusing (sup : Bool) (slots : List Nat) (hdr : Nat) (f : State → State := id) : State :=
  f (on 2 fun g => code slots hdr { g with sup := sup })
/-- A reserved header bit, a privileged operation at user level, and a launch time that has passed. -/
theorem witness_issue_refused_illegal : bundleAt { bad := some (2, 0) } (refusing true [] 0x10) := ⟨_, rfl, by decide +kernel⟩
def sysBundle : Bundle := { moves := [{ slot := 0, guard := 0, src := .sock 0 1, dunit := 15, dport := 85 }], priv := some 0 }
theorem witness_issue_refused_privileged : let s := refusing false [mv 0 1 15 85] 0
    Quiet s 0 ∧ bundleAt sysBundle s ∧ (s.eng 0).sup = false ∧ (s.eng 0).late = [] :=
  ⟨by constructor <;> rfl, ⟨_, rfl, by decide +kernel⟩, rfl, rfl⟩
theorem witness_issue_refused_launch : let s := refusing true [] 0x200 fun s => { s.n0Put 0x5010 1#32 with timNow := 0x50000 }
    Quiet s 0 ∧ bundleAt { timed := true } s ∧ (s.eng 0).launchWait = false ∧ 0 < s.ecPast 0 (s.eng 0).launch ∧
    (s.n0 0x5010).getLsbD 0 = true :=
  ⟨by constructor <;> rfl, ⟨_, rfl, by decide +kernel⟩, rfl, by decide +kernel, by decide +kernel⟩
/-- MD6 with a bundle that reads alu0.q before its result, that writes LC in a repeat, and that writes the predicate of a guard; with the
traps on and off. -/
def hazarding (l : List Op) (slots : List Nat) (hdr : Nat) (ctl : Word) : State :=
  (on 2 fun g => (code slots hdr g).ioPut 0x860 ctl).modEng 0 fun g => { g with mode := 6, hazExempt := false, inflight := l, haz := {}, opId := 5 }
theorem witness_issue_refused_hazards (ctl : Word) (h : ctl = 0 ∨ ctl = 0x7E) :
    let o : Op := { flying 5 .writeQ with age := 1, lat := 3 }
    let s := hazarding [o] [mv 0 (5 * 128 + 8) 0 1] 0 ctl
    let u := hazarding [] [mv 0 0x807 8 16] (5 * 2 ^ 10) ctl
    let v := hazarding [] [mv 0 0x801 2 7, mv 7 0x802 0 1] 0 ctl
    (s.eng 0).inflight = [o] ∧ longOp o.unit o.opcode = false ∧ o.id < (s.eng 0).opId ∧ (s.eng 0).intEvent = none ∧
    bundleAt { moves := [{ slot := 0, guard := 0, src := .sock 5 8, dunit := 0, dport := 1 }] } s ∧
    bundleAt { repn := 5, moves := [{ slot := 0, guard := 0, src := .imm 7, dunit := 8, dport := 16 }] } u ∧
    bundleAt { moves := [{ slot := 0, guard := 0, src := .imm 1, dunit := 2, dport := 7 },
      { slot := 1, guard := 7, src := .imm 2, dunit := 0, dport := 1 }] } v ∧ ((s.eng 0).ioGet 0x860).getLsbD 1 = (ctl != 0) := by
  rcases h with rfl | rfl <;>
    exact ⟨rfl, rfl, by decide, rfl, ⟨_, rfl, by decide +kernel⟩, ⟨_, rfl, by decide +kernel⟩, ⟨_, rfl, by decide +kernel⟩, rfl⟩
/-- A launch at its time and before it; a wait that has ended and one that has not. -/
theorem witness_timed_holds : let s := on 2 fun g => code [] 0x200 { g with launchWait := true }
    Quiet s 0 ∧ (s.eng 0).single ∧ bundleAt { timed := true } (s.modEng 0 fun h => { h with waitTo := none }) ∧
    (s.eng 0).launchWait = true ∧ 0 ≤ s.ecPast 0 (s.eng 0).launch ∧ s.ecPast 0 0x100000 < 0 :=
  ⟨by constructor <;> rfl, by unfold Engine.single; decide, ⟨_, rfl, by decide +kernel⟩, rfl, by decide +kernel, by decide +kernel⟩
theorem witness_timed_holds_wait : let s := on 2 (code [] 0)
    bundleAt {} (s.modEng 0 fun h => { h with waitTo := some 0 }) ∧ ((0 : Dword) - s.engTim 0).toInt ≤ 0 ∧
    0 < ((0x100000 : Dword) - s.engTim 0).toInt :=
  ⟨⟨_, rfl, by decide +kernel⟩, by decide +kernel, by decide +kernel⟩

/-! ### Fabric -/

/-- A request for bank 0 of Pool slice 0, at its first bytes, and the engine with it. -/
def req (write : Bool) : FabReq := { write := write, addr := 0, len := 8, strobe := 0xF0, data := 0x1122334455667788, token := 0, va := 0 }
def asking (q : List (FabReq × FabUse)) (f : Engine → Engine := id) : State := on 2 fun g => f { g with fabQ := q }
theorem witness_fabric_transaction (w : Bool) : let s := asking [(req w, .op 0)]
    (s.eng 0).fabOut = none ∧ (s.eng 0).fabNext ≤ s.fc ∧ FabricIdle s (some 0) ∧ (req w).addr / 2 ^ 31 = s.devId ∧ PoolAt s ((req w).addr % 2 ^ 31) (req w).len ∧
    s.wayTo (engDie 0) (req w).addr (req w).len = [(geckoDie 0, 0)] := by
  cases w <;> exact ⟨rfl, Nat.le_refl _, idle_of (by decide +kernel), rfl,
    ⟨⟨0, 0, by decide +kernel, by decide +kernel, by decide +kernel, by decide +kernel⟩, rfl⟩, by decide +kernel⟩
def answered (o : Op) (rp : Resp) : State := on 2 fun g => { g with
  inflight := [o], cycleOpen := false, fabOut := some { req := req false, use := .op o.id, resp := some rp } }
theorem witness_fabric_response : let o := { flying 9 (.mem true [{ va := 0x40000000, len := 4, strobe := 0xF, data := 0, elem := 0 }] []) with opcode := 4, arg := 0x40000000 }
    let s := answered o (.ok 0x11223344)
    (s.eng 0).inflight = [o] ∧ (s.eng 0).fabOut = some { req := req false, use := .op o.id, resp := some (.ok 0x11223344) } ∧
    lsuBytes 4 = 4 ∧ fullStrobe 4 = 0xF ∧ lsuFirst 4 (BitVec.ofNat 32 o.arg) = 4 := by and_intros <;> rfl
theorem witness_fabric_response_fails : let o := flying 9 (.mem false [{ va := 0x40000000, len := 4, strobe := 0xF, data := 0, elem := 0 }] [])
    let s := answered o (.cap 5)
    (s.eng 0).inflight = [o] ∧ (s.eng 0).fabOut = some { req := req false, use := .op o.id, resp := some (.cap 5) } ∧
    (req false).addr / 2 ^ 31 = s.devId := ⟨rfl, rfl, rfl⟩
theorem witness_fabric_response_in (rp : Resp) : let o := flying 12 (.rpio (req false))
    ((answered o rp).eng 0).inflight = [o] ∧
    ((answered o rp).eng 0).fabOut = some { req := req false, use := .op o.id, resp := some rp } := ⟨rfl, rfl⟩
theorem witness_capwait_response : let s := on 2 fun g => { g with
      fabOut := some { req := req false, use := .capture 0x7FF8, resp := some (.ok 5) } }
    (s.eng 0).fabOut = some { req := req false, use := .capture 0x7FF8, resp := some (.ok 5) } ∧ (s.eng 0).portB = [] ∧ s.ecc = [] ∧
    (∀ b, s.borrowed 0 b = false) ∧ (req false).addr / 2 ^ 31 = s.devId := ⟨rfl, rfl, rfl, fun _ => rfl, rfl⟩
theorem witness_cache_fill (i : Bool) : let s := on 4 fun g => { g with
      sbuf := [{ block := 13, mask := 3, data := 7, addr := 0xD0, len := 2, token := 0 }]
      fabOut := some { req := req false, use := .fill i 3, resp := some (.ok 0xAB) } }
    (s.eng 0).fabOut = some { req := req false, use := .fill i 3, resp := some (.ok 0xAB) } ∧ (s.eng 0).inflight = [] := ⟨rfl, rfl⟩
def sb : SbEnt := { block := 0, mask := 0x8001, data := 0x5A, addr := 0x40000000, len := 1, token := 0 }
theorem witness_drain : let s := asking [(sb.request, .drain)] fun g => { g with sbuf := [sb] }
    (s.eng 0).sbuf = [sb] ∧ (s.eng 0).fabQ = [(sb.request, .drain)] ∧ (s.eng 0).fabOut = none ∧ (s.eng 0).fabNext ≤ s.fc ∧ (s.eng 0).inflight = [] ∧
    FabricIdle s (some 0) ∧ 16 * sb.block / 2 ^ 31 = s.devId ∧ PoolAt s (16 * sb.block % 2 ^ 31) 16 :=
  ⟨rfl, rfl, rfl, Nat.le_refl _, rfl, idle_of (by decide +kernel), rfl,
    ⟨0, 0, by decide +kernel, by decide +kernel, by decide +kernel, by decide +kernel⟩, rfl⟩


/-! ### Registers of an engine -/

theorem witness_engine_registers : (md2.eng 0).entryFrame = none ∧ (md2.eng 0).late = [] ∧ (md2.eng 0).arm = none ∧ (md2.eng 0).armed = [] ∧ CanWrite md2 (.pio 0) (.io 0 0x800) ∧
    CanWrite md2 (.pio 0) (.io 0 0x818) ∧ CanWrite md2 (.pio 0) (.io 0 0x824) ∧ CanWrite md2 (.pio 0) (.io 0 0x840) ∧
    CanWrite md2 (.pio 0) (.io 0 0x888) ∧ CanWrite md2 (.pio 0) (.io 0 0x894) ∧ CanWrite md2 (.pio 0) (.io 0 0x8C0) ∧
    CanWrite md2 (.pio 0) (.io 0 0x8D4) ∧ CanWrite md2 (.pio 0) (.io 0 0xB10) := by
  refine ⟨rfl, rfl, rfl, rfl, ?_⟩; and_intros <;> exact ⟨_, rfl, rfl, rfl⟩
/-- An entry that has built its frame at the highest place. -/
theorem witness_engine_registers_entry : let s := on 2 fun g => { g with entryFrame := some 0x3FFC0 }
    (s.eng 0).entryFrame = some 0x3FFC0 ∧ CanWrite s (.pio 0) (.io 0 0x8C0) := ⟨rfl, _, rfl, rfl, rfl⟩
/-- Registers of an H-world engine, by the alias of the same world. -/
theorem witness_h_registers : CanWrite rdy (.pio 96) (.io 96 0x8A0) ∧ CanWrite rdy (.pio 96) (.io 96 0x8A4) := by
  and_intros <;> exact ⟨_, rfl, rfl, rfl⟩
theorem witness_instruction_loading : let s := on 2 fun g => { g with ilBuf := some 7 }
    s.ecc = [] ∧ (md2.eng 0).ilBuf = none ∧ (s.eng 0).ilHeld = [] ∧ (s.eng 0).armed = [] ∧ (s.eng 0).ilBuf = some 7 ∧ (s.eng 0).running = true ∧
    (s.eng 0).pc.getLsbD 31 = false ∧ ((s.eng 0).pc.getLsbD 11).toNat = ((s.eng 0).ioGet 0x820).toNat % 0x8000 / 0x4000 ∧
    ((md2.eng 0).ioPut 0x820 0x7FFF#32).ioGet 0x820 = 0x7FFF#32 := by and_intros <;> rfl
theorem witness_vector_power : let s := on 4 fun g => { g with vdue := true }
    throughput (s.eng 0).mode = true ∧ (s.eng 0).vpwr = .on ∧ (s.eng 0).vdue = true ∧ ((s.eng 0).effIo 0x840).getLsbD 0 = false ∧
    (s.eng 0).armed = [] ∧ (s.eng 0).arm = none := ⟨rfl, rfl, rfl, rfl, rfl, rfl⟩
theorem witness_vector_wake : let s := on 4 fun g => { g with vpwr := .waking, vwake := 0 }
    (s.eng 0).vpwr = .waking ∧ (s.eng 0).vwake = 0 ∧ (let s := on 4 fun g => { g with vpwr := .asleep }; (s.eng 0).vpwr = .asleep ∧
      CanWrite s (.pio 0) (.io 0 0x840)) := ⟨rfl, rfl, rfl, _, rfl, rfl, rfl⟩
/-- An engine in MD10, seen by the keeper engine. -/
def frozen : State := on 10 fun g => { g with world := .H }
theorem witness_state_window : CanRead frozen (.alias_ keeper) (.io 0 0x1000) ∧ CanRead frozen (.alias_ keeper) (.io 0 0x15FC) ∧
    CanWrite frozen (.alias_ keeper) (.io 0 0x1000) ∧ CanWrite frozen (.alias_ keeper) (.io 0 0x11AC) ∧ (md2.eng 0).mode ≠ 10 := by
  refine ⟨⟨_, rfl, rfl⟩, ⟨_, rfl, rfl⟩, ⟨_, rfl, rfl, rfl⟩, ⟨_, rfl, rfl, rfl⟩, by decide +kernel⟩
/-- The last word of v15, the first port of alu0 and the last of sys. -/
theorem witness_state_window_units : CanWrite frozen (.alias_ keeper) (.io 0 0x117C) ∧ CanWrite frozen (.alias_ keeper) (.io 0 0x1200) ∧
    CanWrite frozen (.alias_ keeper) (.io 0 0x153C) ∧ CanRead frozen (.alias_ keeper) (.io 0 0x153C) :=
  ⟨⟨_, rfl, rfl, rfl⟩, ⟨_, rfl, rfl, rfl⟩, ⟨_, rfl, rfl, rfl⟩, _, rfl, rfl⟩
theorem witness_input_queues : let s := on 2 fun g => { g with iq := g.iq.set 15 [7, 8], iqHeld := [{ queue := 15, words := [9], who := none }] }
    CanRead s (.pio 0) (.io 0 0x7C) ∧ CanWrite s (.pio 0) (.io 0 0x40) ∧ (s.eng 0).iq[(15 : Fin 16)] = [7, 8] ∧
    (s.eng 0).iq[(0 : Fin 16)] = [] ∧ (s.eng 0).iqHeld = [{ queue := 15, words := [9], who := none }] ∧ (md2.eng 0).iqHeld = [] :=
  ⟨⟨_, rfl, rfl⟩, ⟨_, rfl, rfl, rfl⟩, rfl, rfl, rfl, rfl⟩
/-- The queue of a held push that fits after one pop, and of one that does not. -/
theorem witness_input_queues_full (n : Nat) (h : n = 57 ∨ n = 64) : let s := on 2 fun g => { g with
      iq := g.iq.set 15 (List.replicate n 7), iqHeld := [{ queue := 15, words := List.replicate 8 9, who := none }] }
    CanRead s (.pio 0) (.io 0 0x7C) ∧ (s.eng 0).iq[(15 : Fin 16)] = 7 :: List.replicate (n - 1) 7 ∧
    (List.replicate (n - 1) 7).length + (List.replicate 8 9).length = if n = 57 then 64 else 71 := by
  rcases h with rfl | rfl <;> exact ⟨⟨_, rfl, rfl⟩, rfl, rfl⟩
theorem witness_input_queues_alias : let s := on 2 fun g => { g with world := .H }
    CanWrite s (.alias_ keeper) (.io 0 0x40) := ⟨_, rfl, rfl, rfl⟩
theorem witness_bank_handover : md2.borrowed 0 1 = false ∧ (accessOf md2 (.pio 0)).sup = true ∧ (accessOf md2 (.pio 0)).viaAlias = false ∧
    (md2.eng 0).owner 1 = 0 ∧ (accessOf md2 (.pio 0)).world = (md2.eng 0).world ∧ md2.portBusy 0 1 = false ∧ (md2.eng 0).reclaim = [] := by
  and_intros <;> rfl
/-- The alias of an engine of the other world. -/
theorem witness_bank_handover_barred : let a := accessOf md2 (.alias_ keeper)
    CanWrite md2 (.alias_ keeper) (.io 0 0x888) ∧ a.viaAlias = true ∧ a.root = false ∧ (md2.eng 0).owner 1 = 0 ∧ (md2.eng 0).mode ≠ 10 ∧
    a.world ≠ (md2.eng 0).world := ⟨⟨_, rfl, rfl, rfl⟩, rfl, rfl, rfl, by decide +kernel, by decide +kernel⟩
/-- A reclaim that waits for a DMA access at the bank's port, and for a write that port A has held. -/
theorem witness_reclaim_held : let z : DmaReq := {
      write := true, fa := 0x10004000, len := 8, token := 0, data := 0, table := false, atPort := true }
    let s := on 2 fun g => { g with reclaim := [1] }
    let t := { s with dma := s.dma.set 0 { s.dma[(0 : ChanId)] with out := some z } }
    let u := s.modEng 0 fun g => { g with portB := [{ addr := 0x10007FFF, before := 0, ec := g.ec, held := true }] }
    t.portBusy 0 1 = true ∧ (t.eng 0).reclaim = [1] ∧ u.portBusy 0 1 = true ∧ s.portBusy 0 1 = false := by
  refine ⟨by decide +kernel, rfl, by decide +kernel, by decide +kernel⟩
/-- A load that finds one bit of the last word of bank 15 in error, with an empty tracker, at the threshold, and without spares. -/
def erring (track : List Track) (spares thresh : Nat) : State :=
  let o := { flying 9 (.seq true [{ va := 0x3FFF8, len := 4, strobe := 15, data := 0, elem := 0, spot := .own (ownAddr 0 0x3FFF8) }] []) with
    opcode := 4, lat := 3, arg := 0x3FFF8 }
  let s := (busy o).dPut 0 0x4000 (BitVec.ofNat 32 thresh)
  { s with ecc := [(15 * 2 ^ 20 + 2047, 1)], dies := s.dies.set 0 { s.die 0 with
    track := smPut (fun _ => []) (s.die 0).track 15 track, spares := smPut (fun _ => 0) (s.die 0).spares 15 spares } }
theorem witness_memory_care_error (track : List Track) (spares thresh : Nat)
    (h : (track, spares, thresh) ∈ [([], 0, 2), ([{ word := 2047, count := 1, last := 0 }], 7, 2), ([{ word := 2047, count := 3, last := 0 }], 8, 4)]) :
    let s := erring track spares thresh
    ∃ o, Alone s 0 o ∧ o.unit = 9 ∧ o.opcode < 7 ∧ o.shadow = [] ∧ o.age + 1 < o.lat ∧ 0x3FFF8 % 4 = 0 ∧ s.eccOf (15 * 2 ^ 20 + 2047) = 1 ∧
    (s.dGet 0 0x4000).getLsbD 8 = false ∧ (s.dGet 0 0x4004).getLsbD 31 = false ∧ (s.dGet 0 0x4000).toNat % 16 = thresh ∧
    smGet (fun _ => []) (s.die 0).track 15 = track ∧ smGet (fun _ => 0) (s.die 0).spares 15 = spares := by
  simp only [List.mem_cons, List.not_mem_nil, or_false, Prod.mk.injEq] at h
  rcases h with ⟨rfl, rfl, rfl⟩ | ⟨rfl, rfl, rfl⟩ | ⟨rfl, rfl, rfl⟩ <;>
    exact ⟨_, ⟨rfl, rfl, rfl, rfl, rfl, rfl, List.nodup_nil, rfl⟩, rfl, by decide, rfl, by decide, rfl, by decide +kernel, rfl, rfl, rfl,
      rfl, rfl⟩
/-- A quiet bank that Skink may borrow, and one under test with a stuck word. -/
def lent : State := ((rdy.dPut (geckoDie 0) 0x4020 0x80001000#32).modEng 0 fun g => g.ioPut 0x88C 0x8000#32)
theorem witness_skink_borrow : let s := { lent with fc := 10000000 }
    (s.dGet (geckoDie 0) 0x4020).getLsbD 31 = true ∧ ((s.eng 0).ioGet 0x88C).getLsbD 15 = true ∧ (s.eng 0).owner 15 = 0 ∧
    max 1 ((s.dGet (geckoDie 0) 0x4020).toNat / 2 ^ 12 % 2 ^ 12) * 1024 * s.kF ≤
      (s.fc - (s.eng 0).bankAt[(15 : Fin 16)]) * (if (s.eng 0).mode = 9 then min 20 s.kE else s.kE) ∧ (s.die (geckoDie 0)).mode ≠ 0 := by
  and_intros <;> decide +kernel
theorem witness_skink_test : let m : SkinkBank := { eng := 0, bank := 15, word := 2046 }
    let s := { lent with skink := lent.skink.set 0 { held := [{ eng := 1, bank := 3, word := 2048 }, m], next := 0 }
                         ecc := [(spadKey 0 15 * 2 ^ 20 + 2046, 3)] }
    s.skink[(0 : GeckoId)].held = [{ eng := 1, bank := 3, word := 2048 }] ++ m :: [] ∧ s.skink[(0 : GeckoId)].next ≤ s.fc ∧
    s.eccOf (spadKey 0 15 * 2 ^ 20 + 2046) = 3 ∧ (s.die (geckoDie 0)).mode ≠ 0 ∧
    smGet (fun _ => 0) (s.die (geckoDie 0)).spares (spadKey 0 15) < 8 := by and_intros <;> decide +kernel
/-- The answers that a walk has: directory entries, and table entries at 0x2000. -/
def paged (l : List (Nat × Nat × Resp)) : State := rdy.modEng 0 fun g => { g with world := .H, tables := l }
theorem witness_page_walk : let s := paged []
    (s.eng 0).world = .H ∧ (s.eng 0).tlb = [] ∧ (s.eng 0).ptb = 0 ∧ s.devId = 0 ∧ (s.eng 0).fabQ = [] ∧ (s.eng 0).fabOut = none ∧
    answerTo (s.eng 0).tables 0 8 = none ∧ s.masterCheck (s.engWho 0) 0 8 false = none := by and_intros <;> rfl
/-- A table and its leaf, a large page, an entry that is not valid, and one that could not be read. -/
theorem witness_page_walk_kept : answerTo ((paged [(0, 8, .ok 0x2001), (0x2000, 8, .ok 0x300F)]).eng 0).tables 0x2000 8 = some (.ok 0x300F) ∧
    answerTo ((paged [(0, 8, .ok 0x2F)]).eng 0).tables 0 8 = some (.ok 0x2F) ∧ (0x2001 % 2 ^ 12 = 1 ∧ 0x2001 / 2 ^ 12 % 2 = 0) ∧
    (0x2F % 2 = 1 ∧ 0x2F / 2 ^ 5 % 2 = 1 ∧ 0x2F / 2 % 2 = 1) ∧
    answerTo ((paged [(0, 8, .ok 0)]).eng 0).tables 0 8 = some (.ok 0) ∧ answerTo ((paged [(0, 8, .bus 1)]).eng 0).tables 0 8 = some (.bus 1) :=
  ⟨rfl, rfl, by decide, by decide, rfl, rfl⟩
/-- A store and a fetch that wait for the page. -/
theorem witness_page_walk_waits : let p : MemPart := { va := 0xFFF, len := 1, strobe := 1, data := 5, elem := 0, spot := .walk }
    let o := { flying 9 (.mem false [p] []) with opcode := 8 }
    let s := (paged []).modEng 0 fun g => { g with inflight := [o] }
    let t := (paged []).modEng 0 fun g => { g with pc := 0x80000000 }
    (s.eng 0).inflight = [o] ∧ (¬(o.opcode < 7) ∧ p.bad = none ∧ p.va.toNat / 4096 = (0 : Word).toNat / 4096) ∧ (t.eng 0).inflight = [] ∧
    (t.eng 0).pc.getLsbD 31 = true ∧ (t.eng 0).pc.toNat % 2 ^ 26 * 32 / 4096 = (0 : Word).toNat / 4096 ∧
    ((paged []).eng 0).inflight = [] ∧ ((paged []).eng 0).pc.getLsbD 31 = false := ⟨rfl, by decide, rfl, rfl, rfl, rfl, rfl⟩
theorem witness_refused_access : md2.inReset = false ∧ md2.cutOff (.alias_ keeper) (.io 0 0x800) = false ∧ ioCovers 0x1FFC = false ∧ ioCovers 0x801 = true ∧
    (let s := on 2 fun g => { g with sup := false }; (s.eng 0).sup = false) ∧ md2.world 0 ≠ md2.world 96 ∧
    State.reset.engReady 5 = false ∧ State.reset.world 5 = State.reset.world 96 := by and_intros <;> first | rfl | decide +kernel

/-! ### Registers, claims, captures -/

theorem witness_register_access : let s := md2
    CanWrite s (.pio 0) (.io 0 0x810) ∧ CanWrite s (.pio 0) (.io 0 0xB2C) ∧ CanWrite s (.pio 0) (.io 0 0x80) ∧
    CanWrite s (.pio 0) (.io 0 0x8D8) ∧ CanWrite s (.alias_ keeper) (.die newt0 0x501C) ∧ CanWrite s (.alias_ keeper) (.die newt0 0x7714) ∧
    CanRead s (.pio 0) (.io 0 0x804) ∧ CanRead s (.pio 0) (.io 0 0xB00) ∧ CanRead s (.alias_ keeper) (.die newt0 0x5014) ∧
    CanRead s (.pio 0) (.io 0 0x874) ∧ CanRead s (.alias_ keeper) (.die newt0 0x5108) := by
  and_intros <;> first | exact ⟨_, rfl, rfl, rfl⟩ | exact ⟨_, rfl, rfl⟩
/-- A claim of the first register index of its kind by the keeper engine, and by engine 0 of another world. -/
def claimed (d : DieId) (r : Nat) (c : Claim) : State := { rdy with dies := rdy.dies.set d { rdy.die d with
  claims := smPut (fun _ => none) (rdy.die d).claims r (some c) } }
theorem witness_claim : CanWrite rdy (.alias_ keeper) (.die newt0 (0x7A00 + 4 * 0x68)) ∧ rdy.claimOf newt0 0x68 = none ∧
    CanWrite rdy (.alias_ keeper) (.die newt0 (0x7A00 + 4 * 0x6F)) ∧ CanWrite rdy (.alias_ keeper) (.die newt0 (0x7A00 + 4 * 0x5F)) ∧
    ¬(portListed newt0 0x5F = true ∧ 0x5F < 0x40) := by
  refine ⟨⟨_, rfl, rfl, rfl⟩, rfl, ⟨_, rfl, rfl, rfl⟩, ⟨_, rfl, rfl, rfl⟩, by decide⟩
theorem witness_release : let s := claimed newt0 0x60 { holder := .engine keeper, world := .H }
    CanWrite s (.alias_ keeper) (.die newt0 (0x7A00 + 4 * 0x60)) ∧ s.claimOf newt0 0x60 = some { holder := .engine keeper, world := .H } ∧
    s.claimBusy newt0 0x60 = false ∧ World.T ≠ s.world keeper := ⟨⟨_, rfl, rfl, rfl⟩, rfl, rfl, by decide +kernel⟩
/-- A release by a chain access of the claim's world, and by a DMA context of another. -/
theorem witness_release_outer : let s := claimed newt0 0x60 { holder := .engine keeper, world := .H }
    CanWrite s (.chain .H) (.die newt0 (0x7A00 + 4 * 0x60)) ∧ (accessOf s (.chain .H)).world = .H ∧ (accessOf s (.chain .T)).world ≠ .H ∧
    CanWrite s (.chain .T) (.die newt0 (0x7A00 + 4 * 0x60)) := ⟨⟨_, rfl, rfl, rfl⟩, rfl, by decide, _, rfl, rfl, rfl⟩
theorem witness_timer (per : Nat) (h : per = 0 ∨ per = 0xFFFF) :
    let s := (rdy.n0Put 0x7CF0 0x80030000#32).n0Put 0x7CFC (BitVec.ofNat 32 per)
    s.physOf 3 = some 3 ∧ (s.n0 0x7CF0).getLsbD 31 = true ∧ ((s.n0 0x7CF8 ++ s.n0 0x7CF4 : Dword) - s.timNow).toInt ≤ 0 ∧
    (s.n0 0x7CFC).toNat = per := by rcases h with rfl | rfl <;> and_intros <;> first | rfl | decide +kernel
theorem witness_timer_not_due : let s := (rdy.n0Put 0x7CF0 0x80030000#32).n0Put 0x7CF4 1#32
    (s.n0 0x7CF0).getLsbD 31 = true ∧ ¬((s.n0 0x7CF8 ++ s.n0 0x7CF4 : Dword) - s.timNow).toInt ≤ 0 := by
  and_intros <;> first | rfl | decide +kernel
theorem witness_captures : CanWrite rdy (.alias_ keeper) (.die newt0 0x5300) ∧ CanWrite rdy (.alias_ keeper) (.die newt0 0x3704) ∧
    (rdy.dGet newt0 0x5300).getLsbD 7 = false ∧ rdy.claimOf newt0 0x50 = none ∧ (rdy.dGet newt0 0x3704).getLsbD 31 = false :=
  ⟨⟨_, rfl, rfl, rfl⟩, ⟨_, rfl, rfl, rfl⟩, rfl, rfl, rfl⟩
theorem witness_captures_taken : let s := (claimed newt0 0x50 { holder := .decIn, world := .H }).n0Put 0x5300 1#32
    (s.n0 0x5300).getLsbD 0 = true ∧ s.dinUnit 0 0 = some 0 ∧ ¬((s.n0 0x5000).getLsbD 31 = true ∧ s.helio.st = .locked) ∧
    (s.n0 0x5100).toNat % 4 = 0 ∧ (s.n0 0x5100).getLsbD 31 = false := ⟨rfl, rfl, by decide +kernel, rfl, rfl⟩
/-- The epoch pulse on DEC_IN 15. -/
theorem witness_captures_epoch : let s := { rdy.n0Put 0x5000 0x802819F8#32 with helio := { st := .locked } }
    s.inReset = false ∧ (s.n0 0x5000).getLsbD 31 = true ∧ s.helio.st = .locked ∧ (s.n0 0x5000).getLsbD 3 = true ∧
    (s.n0 0x5000).toNat / 2 ^ 4 % 2 ^ 4 = 15 := ⟨rfl, rfl, rfl, rfl, rfl⟩
theorem witness_captures_full : let s := { rdy with dies := rdy.dies.set newt0 { rdy.die newt0 with
      claims := (List.range 16).map fun k => (0x50 + k, some { holder := .engine 1, world := .T }) } }
    (∀ j, j < 16 → s.claimOf newt0 (0x50 + j) ≠ none) ∧ (s.n0 0x5300).getLsbD 7 = false := ⟨by decide +kernel, rfl⟩
theorem witness_latency_running : let s := rdy.n0Put 0x3704 0x85000003#32
    (s.n0 0x3704).getLsbD 31 = true ∧ (s.n0 0x3704).toNat / 2 ^ 24 % 16 = 5 ∧ CanWrite s (.alias_ keeper) (.die newt0 0x3704) :=
  ⟨rfl, rfl, _, rfl, rfl, rfl⟩
theorem witness_decision : let s := claimed newt0 (decReg 0) { holder := .engine 96, world := .H }
    CanWrite s (.pio 96) (.die newt0 0x100) ∧ s.decHolder 0 = some 96 ∧ s.timNow.toNat % 65536 = 0 ∧
    (let s : State := { s with pins := { s.pins with outQuiet := 1 } }
     s.pins.outQuiet.getLsbD 0 = true ∧ s.pins.fineNew.getLsbD 0 = false) := ⟨⟨_, rfl, rfl, rfl⟩, rfl, rfl, rfl, rfl⟩


/-! ### Time -/

def hel (h : Helio) (f : State → State := id) : State := f { rdy with helio := h }
theorem witness_time_base : rdy.pending = [] ∧ rdy.inReset = false ∧ ({ rdy with supplyHold := true } : State).inReset = true ∧ (hel { st := .free }).helio.st = .free ∧ (rdy.n0 0x5000).toNat / 2 ^ 26 % 4 = 0 ∧
    CanWrite (hel {}) (.alias_ keeper) (.die newt0 0x5000) ∧ State.reset.helio.expref = none ∧ (∀ e, (State.reset.eng e).mode.val ≤ 1) ∧
    CanWrite (hel { st := .locked } fun s => s.n0Put 0x5000 0x80281E04#32) (.alias_ keeper) (.die newt0 0x5020) := by
  refine ⟨rfl, rfl, rfl, rfl, rfl, ⟨_, rfl, rfl, rfl⟩, rfl, by decide +kernel, ⟨_, rfl, rfl, rfl⟩⟩
/-- EXPREF at 40 MHz, in the limits, and at 250 MHz, outside them; a loss with a deterministic engine of the Trigger world. -/
theorem witness_time_base_lock : let s := hel { st := .locking, expref := some 40000000 }
    s.helio.st = .locking ∧ s.helio.expref = some 40000000 ∧ (s.n0 0x5000).toNat / 2 ^ 16 % 2 ^ 8 * 40000000 ≤ 1650000000 ∧
    (s.n0 0x5000).toNat / 2 ^ 8 % 2 ^ 8 * 40000000 ≤ 1250000000 ∧ ¬((s.n0 0x5000).toNat / 2 ^ 16 % 2 ^ 8 * 250000000 ≤ 1650000000) := by
  and_intros <;> first | rfl | decide +kernel
theorem witness_time_base_lost (st : HelSt) (h : st ≠ .free) : let s := { md2 with helio := { st := st } }
    s.inReset = false ∧ s.helio.st ≠ .free ∧ (s.eng 0).world = .T ∧ determ (s.eng 0).mode = true := ⟨rfl, h, rfl, rfl⟩
/-- An acknowledged change of an MD4 engine into MD2, which the loss in ALIGNED breaks. -/
theorem witness_time_base_breaks : let a : Arm := {
      seq := 1, time := 0, mode := some 2, swap := false, entry := 0, slotsw := false, acked := true, remote := false }
    let s := { on 4 fun g => { g with arm := some a } with helio := { st := .aligned } }
    s.helio.st = .aligned ∧ (s.eng 0).world = .T ∧ (s.eng 0).arm = some a ∧ a.acked = true ∧ a.applied = false ∧ determ 2 = true ∧
    (2 : Fin 12) ≠ (s.eng 0).mode ∧ determ (s.eng 0).mode = false := ⟨rfl, rfl, rfl, rfl, rfl, rfl, by decide +kernel, rfl⟩
/-- A package below another on port 0, in a calibration. -/
def below (st : HelSt) (c : Option Calib) : State := hel { st := st, cal := c } fun s => { s with
  ports := s.ports.set 0 { s.ports[(0 : PortId)] with up := true, ttUnit := some 3 } }
def calib (left made : Nat) (asked : Option (Nat × Dword)) (second : Bool) : Calib := {
  left := left, made := made, sumTheta := 0, sumRtt := 0, asked := asked, since := 0, depth := 0, parentAligned := true, second := second }
/-- A packet of VC0. -/
def timed (kind : BitVec 4) (data : List Word) : Packet := sealPkt { pkt kind data with vc := 0 }
def reply : Packet := timed 5 [0, 0, 0, 0, 0x00050100, 0]
theorem witness_time_protocol : let s := below .locked (some (calib 16 0 none false))
    s.helio.cal = some (calib 16 0 none false) ∧ s.upPort = some 0 ∧ s.ports[(0 : PortId)].up = true ∧
    s.ports[(0 : PortId)].ttUnit.isSome = true ∧ Arrives s 0 (timed 4 [1, 0]) 4 :=
  ⟨rfl, rfl, rfl, rfl, by decide +kernel, rfl, by decide, by decide, by decide⟩
/-- A request 64 periods ago across the end of the counter, and one 63 ago. -/
theorem witness_time_protocol_pace : ({ rdy with timNow := 0x100000 } : State).periodsSince (2 ^ 48 - 48) = 64 ∧
    ({ rdy with timNow := 0xF0000 } : State).periodsSince (2 ^ 48 - 48) = 63 := ⟨rfl, rfl⟩
theorem witness_time_protocol_reply : let s := below .locked (some (calib 16 0 (some (5, 0)) false))
    s.helio.cal = some (calib 16 0 (some (5, 0)) false) ∧ s.upPort = some 0 ∧ Arrives s 0 reply 5 ∧
    (0x00050100#32).toNat / 2 ^ 16 = 5 ∧ (0x00050100#32).getLsbD 8 = true ∧ 0 < ((0 : Dword) + BitVec.ofNat 64 (2 ^ 32) - s.timNow).toInt ∧
    ((0 : Dword) - 0x100000000#64 + BitVec.ofNat 64 (2 ^ 32) - s.timNow).toInt ≤ 0 :=
  ⟨rfl, rfl, ⟨by decide +kernel, rfl, by decide, by decide, by decide⟩, rfl, rfl, by decide +kernel, by decide +kernel⟩
theorem witness_time_protocol_done (second : Bool) : let s := below .locked (some (calib 0 16 none second))
    s.helio.cal = some (calib 0 16 none second) ∧ s.helio.st = .locked ∧ s.helio.wasAligned = false ∧ roundDiv 0 (2 * 16) = 0 :=
  ⟨rfl, rfl, rfl, rfl⟩
theorem witness_time_protocol_aligned : let s := below .aligned none
    s.helio.st = .aligned ∧ s.upPort = some 0 ∧ s.helio.cal = none ∧ s.periodsSince s.helio.calAt < 10 * s.helio.expref.getD 1 ∧
    10 * 40000000 ≤ ({ s with timNow := 0x17D784000000 } : State).periodsSince 0 ∧
    1024 ≤ ({ s with timNow := 0x3FF0000 } : State).periodsSince (2 ^ 48 - 1) ∧ ({ s with timNow := 0x3FF0000 } : State).periodsSince 0 < 1024 :=
  ⟨rfl, rfl, rfl, by decide +kernel, by decide +kernel, by decide +kernel, by decide +kernel⟩

/-- A calibration of an aligned package with an offset within the limit and beyond it, and of one that has left ALIGNED. -/
theorem witness_time_protocol_offset (st : HelSt) (theta : Int) (h : (st, theta) ∈ [(.aligned, 1024), (.aligned, -1025), (.locked, -16), (.locked, 17)]) :
    let c := { calib 0 16 none true with sumTheta := theta * 32 }
    let s := hel { st := st, cal := some c, wasAligned := true }
    s.helio.cal = some c ∧ c.left = 0 ∧ 0 < c.made ∧ s.helio.st = st ∧ s.helio.wasAligned = true ∧ roundDiv c.sumTheta (2 * c.made) = theta := by
  simp only [List.mem_cons, List.not_mem_nil, or_false, Prod.mk.injEq] at h
  rcases h with ⟨rfl, rfl⟩ | ⟨rfl, rfl⟩ | ⟨rfl, rfl⟩ | ⟨rfl, rfl⟩ <;> exact ⟨rfl, rfl, by decide, rfl, rfl, rfl⟩

/-! ### Commits -/

theorem witness_commit_start : ∀ st ∈ [0, 1, 3], CanWrite { rdy with coord := { st := st } } (.alias_ keeper) (.die newt0 0x5400) := by
  intro st _; exact ⟨_, rfl, rfl, rfl⟩
/-- A commit of engine 96 far ahead, a time too close, and an engine of the other world. -/
theorem witness_commit_start_units : let s := (rdy.n0Put 0x5410 1#32).n0Put 0x5418 1#32
    let T : Dword := s.n0 0x5418 ++ s.n0 0x5414
    (s.n0 0x5410).getLsbD 0 = true ∧ ¬((T - (s.timNow + BitVec.ofNat 64 ((400 + 16) * 65536))).toInt ≤ 0) ∧
    (((0 : Dword) - (s.timNow + BitVec.ofNat 64 ((400 + 16) * 65536))).toInt ≤ 0) ∧ s.world 96 = (accessOf s (.alias_ keeper)).world ∧
    md2.world 0 ≠ (accessOf s (.alias_ keeper)).world := ⟨rfl, by decide +kernel, by decide +kernel, rfl, by decide +kernel⟩
/-- A commit of the group by SCOPE, with a package below on port 1. -/
theorem witness_commit_start_scope : let s := { ((rdy.n0Put 0x5410 1#32).n0Put 0x5418 1#32).n0Put 0x542C 0x100#32 with
      ports := rdy.ports.set 1 { rdy.ports[(1 : PortId)] with up := true, child := true } }
    CanWrite s (.chain .T) (.die newt0 0x5400) ∧ (0xC1000010#32).getLsbD 30 = true ∧ (accessOf s (.chain .T)).world = .T ∧
    (List.finRange 4).filter s.childPort = [1] ∧ (s.n0 (0x5420 + 4 * (104 / 32))).getLsbD (104 % 32) = true := by
  refine ⟨⟨_, rfl, rfl, rfl⟩, rfl, rfl, by decide +kernel, rfl⟩
/-- An ARM on its way to engine 0 in mode m: without a bank swap and with one. -/
def arming (m : Fin 12) (ctl : Word) : State := { on m with coord := { st := 1, own := true, toUnit := [(0, .arm)], ctl := ctl } }
theorem witness_commit_arm : let s := arming 4 0x02000000#32
    s.coord.st = 1 ∧ ((0 : UnitId), TcMsg.arm) ∈ s.coord.toUnit ∧ (s.eng 0).clearing = 0 ∧ s.engReady 0 = true ∧
    s.coord.ctl.getLsbD 20 = false ∧ s.coord.ctl.getLsbD 23 = false ∧ (s.eng 0).world = .T ∧ s.helio.st ≠ .aligned ∧
    ((arming 4 0x0F800000#32).coord.ctl.getLsbD 23 = true) ∧ ((s.eng 0).ioGet 0x81C).getLsbD 1 = false :=
  ⟨rfl, by decide +kernel, rfl, rfl, rfl, rfl, rfl, by decide +kernel, rfl, rfl⟩
theorem witness_commit_arm_swap : let s := (arming 4 0x04800000#32).modEng 0 fun g => g.ioPut 0x81C 2#32
    s.coord.ctl.getLsbD 23 = true ∧ ((s.eng 0).ioGet 0x81C).getLsbD (if (s.eng 0).activeB then 0 else 1) = true ∧
    ((s.eng 0).ioGet 0x81C).getLsbD (if (s.eng 0).activeB then 2 else 3) = false := ⟨rfl, rfl, rfl⟩
theorem witness_commit_arm_die (m : Nat) (h : m = 9 ∨ m = 8) : let s := { rdy with
      coord := { st := 1, own := true, toUnit := [(104, .arm)], ctl := BitVec.ofNat 32 (m * 2 ^ 24) } }
    (104 : UnitId).val = 100 + (4 : DieId).val ∧ s.coord.st = 1 ∧ ((104 : UnitId), TcMsg.arm) ∈ s.coord.toUnit ∧
    s.coord.ctl.getLsbD 20 = false ∧ s.coord.ctl.toNat / 2 ^ 24 % 16 = m ∧ (s.die 4).mode ≠ 11 ∧ (s.n0 0x7E00).getLsbD 28 = true ∧
    m ≠ (s.die 4).mode.val := by
  rcases h with rfl | rfl <;> refine ⟨rfl, rfl, ?_, rfl, rfl, ?_, ?_, ?_⟩ <;> decide +kernel
theorem witness_commit_arm_port : let s := { below .aligned none with coord := { st := 1 } }
    Arrives s 0 (timed 6 [0x50001, 0, 0, 0, 0, 0, 0, 0]) 6 ∧ s.upPort = some 0 ∧ s.coord.st = 1 :=
  ⟨⟨by decide +kernel, rfl, by decide, by decide, by decide⟩, rfl, rfl⟩
/-- An engine armed for MD m, acknowledged or not. -/
def armed (acked applied : Bool) (m : Option (Fin 12)) : State := on 4 fun g => { g with arm := some {
  seq := 1, time := 0, mode := m, swap := false, entry := 0, slotsw := false, acked := acked, remote := false, applied := applied } }
theorem witness_commit_ack : ∃ a, ((armed false false (some 5)).eng 0).arm = some a ∧ a.acked = false ∧ a.mode = some 5 :=
  ⟨_, rfl, rfl, rfl⟩
theorem witness_commit_ack_die : ∃ a, ((rdy.modDie newt0 fun y => { y with arm := some {
      seq := 1, time := 0, mode := some 1, swap := false, entry := 0, slotsw := false, acked := false, remote := false } }).die newt0).arm = some a ∧
    a.acked = false := ⟨_, rfl, rfl⟩
/-- A die whose units acknowledge. -/
theorem witness_commit_ack_ready : isGecko 4 = true ∧ (rdy.n0 0x7E00).getLsbD (24 + (4 : DieId).val) = true ∧ isGecko newt0 = false ∧
    (rdy.die newt0).mode ≠ 11 := by decide +kernel
/-- The coordinator at D: with the ACK of unit 0 (arrived or gathered), and with its NAK. -/
def gathering (c : Coord) : State := { armed true false (some 5) with coord := { c with st := 1, own := true, units := [0] } }
theorem witness_commit_end : (0 : UnitId) ∈ (gathering { acks := [0] }).coord.acks ∧ (0 : UnitId) ∈ (gathering { naks := [0] }).coord.naks ∧
    (let s := gathering { acked := [0] }
     let D := s.coord.time - BitVec.ofNat 64 (max 16 (s.coord.ctl.toNat % 2 ^ 16) * 65536)
     (D - s.timNow).toInt ≤ 0 ∧ (∀ u ∈ s.coord.units, u ∈ s.coord.acked) ∧ ∀ p ∈ s.coord.down, p ∈ s.coord.downAcked) ∧
    (let s := gathering { time := 0x100000000#64 }
     0 < (s.coord.time - BitVec.ofNat 64 (max 16 (s.coord.ctl.toNat % 2 ^ 16) * 65536) - s.timNow).toInt) ∧
    (gathering {}).coord.units = [] ++ (0 : UnitId) :: [] ∧ (0 : UnitId) ∉ (gathering {}).coord.acked := by
  and_intros <;> first | rfl | decide +kernel
theorem witness_commit_abort (applied : Bool) : ∃ a, let s := { armed true applied (some 5) with coord := { toUnit := [(0, .abort 1)] } }
    (s.eng 0).arm = some a ∧ a.applied = applied ∧ a.seq = 1 ∧ (s.eng 0).mode ≠ 11 ∧ s.coord.toUnit = [] ++ ((0 : UnitId), .abort a.seq) :: [] :=
  ⟨_, rfl, rfl, rfl, by cases applied <;> decide +kernel, rfl⟩
theorem witness_commit_apply : ∃ a, ((armed true false (some 5)).eng 0).arm = some a ∧ a.acked = true ∧ a.applied = false ∧
    (a.time - (armed true false (some 5)).engEdge 0).toInt ≤ 0 ∧ a.broken = false ∧ a.mode = some 5 ∧ a.swap = false ∧
    determ 5 = false ∧ ((armed true false (some 5)).eng 0).mode = 4 := ⟨_, rfl, rfl, rfl, by decide +kernel, rfl, rfl, rfl, rfl, rfl⟩
/-- An earlier commit that is still to be applied, with a later ARM that has not been acknowledged, and a change into the present
mode. -/
theorem witness_commit_apply_earlier : let a : Arm := {
      seq := 1, time := 0, mode := some 4, swap := false, entry := 0, slotsw := false, acked := true, remote := false }
    let y := { a with seq := 2, acked := false }
    let s := on 4 fun g => { g with armed := [a], arm := some y }
    (s.eng 0).armed = [a] ∧ (s.eng 0).arm = some y ∧ y.acked = false ∧ y.seq ≠ a.seq ∧ (a.time - s.engEdge 0).toInt ≤ 0 ∧
    a.mode = some (s.eng 0).mode := ⟨rfl, rfl, rfl, by decide, by decide +kernel, rfl⟩
theorem witness_commit_apply_broken : let s := armed true false (some 2)
    ∃ a, (s.eng 0).arm = some a ∧ (s.eng 0).world = .T ∧ a.mode = some 2 ∧ determ 2 = true ∧ s.helio.st ≠ .aligned :=
  ⟨_, rfl, rfl, rfl, rfl, by decide +kernel⟩
theorem witness_commit_apply_die : (rdy.die newt0).armed = [] ∧ ∃ a, ((rdy.modDie newt0 fun y => { y with arm := some {
      seq := 1, time := 0, mode := some 2, swap := false, entry := 0, slotsw := false, acked := true, remote := false } }).die newt0).arm = some a ∧
    a.acked = true ∧ a.applied = false ∧ (a.time - rdy.timNow).toInt ≤ 0 ∧ (rdy.die newt0).mode ≠ 11 ∧ (rdy.die newt0).mode ≠ 2 :=
  ⟨rfl, _, rfl, rfl, rfl, by decide +kernel, by decide +kernel, by decide +kernel⟩
/-- A proposal of each kind. -/
def proposing (item : Word) (f : Lark → Lark) : State := { rdy with lark := f { rdy.lark with
  sideT := { item := item, val := .replicate 4 0 }, prop := { item := item, val := .replicate 4 0 } } }
theorem witness_dual_commit : CanWrite rdy (.alias_ keeper) (.die newt0 0x7614) ∧ CanWrite rdy (.alias_ keeper) (.die newt0 0x7618) ∧
    CanWrite rdy (.alias_ keeper) (.die newt0 0x7634) ∧ CanWrite rdy (.chain .T) (.die newt0 0x7614) ∧ CanWrite rdy (.chain .T) (.die newt0 0x7618) := by
  and_intros <;> exact ⟨_, rfl, rfl, rfl⟩
theorem witness_dual_commit_valid : (let s := proposing 0x100 fun l => { l with opened := false }
     s.larkValid s.lark.sideT = true ∧ s.lark.opened = false) ∧ (let s := proposing 0x7F id; s.larkValid s.lark.sideT = false) ∧
    (proposing 0x300 id).lark.opened = true ∧ (proposing 0x100 fun l => { l with proposed := true }).lark.confirmed = none ∧
    (let s := proposing 0x100 fun l => { l with proposed := true, since := 0 }; s.lark.since + 2 ^ 24 ≤ 2 ^ 24) := by
  and_intros <;> first | rfl | decide +kernel
theorem witness_dual_commit_in_force : ∀ i ∈ [(1 : Word), 0x100, 0x11F, 0x200, 0x201, 0x300, 0x400, 0x500, 0x600],
    let s := proposing i fun l => { l with proposed := true, confirmed := some 16 }
    s.lark.proposed = true ∧ s.lark.confirmed ≠ none ∧ s.lark.prop.item = i := fun _ _ => ⟨rfl, Option.some_ne_none _, rfl⟩
/-- An access checked before a commit that has not been made, and one that has. -/
theorem witness_dual_commit_old : let k := pkt 1 [1, 2]
    let s := { rdy with lark := { rdy.lark with opened := false, old := some [.chain 1 k .T] }
                        ports := rdy.ports.set 1 { rdy.ports[(1 : PortId)] with vc1 := [(0, k, .T)] } }
    let t := rdy.modEng 0 fun g => { g with iqHeld := [{ queue := 0, words := [1], who := some (.outer 0) }] }
    s.checkedUses = [.chain 1 k .T] ∧ s.lark.old = some [.chain 1 k .T] ∧ rdy.checkedUses = [] ∧ rdy.heldOuter = false ∧
    rdy.lark.old = none ∧ t.heldOuter = true := ⟨rfl, rfl, rfl, by decide +kernel, rfl, by decide +kernel⟩
theorem witness_dual_commit_held (w : Nat) (h : w = 0 ∨ w = 1) : let s := { rdy.modEng 0 fun g => {
      g with iqHeld := [{ queue := 0, words := [1], who := some (.outer w) }] } with lark := { rdy.lark with old := some [], gen := 1 } }
    s.heldOld = decide (w = 0) ∧ s.lark.old = some [] := by rcases h with rfl | rfl <;> exact ⟨by decide +kernel, rfl⟩
theorem witness_world_clear : ((on 0 fun g => { g with clearing := 2048 }).eng 0).clearing ≠ 0 ∧ (md2.eng 0).clearing = 0 :=
  ⟨by decide +kernel, rfl⟩

/-! ### Tokens, the host and DMA -/

def objAt (s : State) (i : Nat) (w : World) : State := { s with objects := smPut objDefault s.objects i { valid := true, world := w, epoch := 0 } }
/-- A mint of object 1 with a well-formed request, with one that is not, and for an object that is not valid. -/
theorem witness_mint : let s := (objAt rdy 1 .H).n0Put 0x7710 0x00030001#32
    CanWrite s (.alias_ keeper) (.die newt0 0x7718) ∧ (s.obj ((s.n0 0x7710).toNat % 2 ^ 12)).valid = true ∧
    (s.obj 1).world = (accessOf s (.alias_ keeper)).world ∧ s.lark.opened = true ∧ (s.n0 0x7710).toNat / 2 ^ 20 % 2 ^ 11 = 0 ∧
    (s.n0 0x7714).toNat % 2 ^ 4 = 0 ∧ (rdy.obj 4095).valid = false ∧ (accessOf s (.alias_ keeper)).root = false := by
  refine ⟨⟨_, rfl, rfl, rfl⟩, ?_⟩; and_intros <;> decide +kernel
/-- After the seal: a mint with ROOT, one of a page that no window gives, and one of a page of another package. -/
theorem witness_mint_sealed (m0 base : Nat) (h : (m0, base) ∈ [(0x80030001, 0), (0x00030001, 0), (0x00030001, 0x80000000)]) :
    let s := { ((objAt rdy 1 .H).n0Put 0x7710 (BitVec.ofNat 32 m0)).n0Put 0x7714 (BitVec.ofNat 32 base) with
      lark := { rdy.lark with opened := false } }
    CanWrite s (.alias_ keeper) (.die newt0 0x7718) ∧ (s.obj 1).valid = true ∧ (s.obj 1).world = (accessOf s (.alias_ keeper)).world ∧
    s.lark.opened = false ∧ (s.n0 0x7710).toNat = m0 ∧ (∀ k, k < 32 → (s.n0 (0x7680 + 4 * k)).getLsbD 31 = false) ∧ s.devId = 0 := by
  simp only [List.mem_cons, List.not_mem_nil, or_false, Prod.mk.injEq] at h
  rcases h with ⟨rfl, rfl⟩ | ⟨rfl, rfl⟩ | ⟨rfl, rfl⟩ <;> refine ⟨⟨_, rfl, rfl, rfl⟩, ?_⟩ <;> and_intros <;> decide +kernel
def slotted (i : SlotId) (h : HSlot) (opened : Bool) : State :=
  { rdy.n0Put 0x7680 0xFC000000#32 with
    sealKey := 0, lark := { rdy.lark with opened := opened }, hslots := rdy.hslots.set i h, pins := { rdy.pins with perst := true }, pcie := { rdy.pcie with link := true } }
/-- Under the key 0: a token for page 0 of the Pool with rights RD and WR, with its seal, and one of a region of 2,048 bytes. -/
def poolTok (log : Nat) : BitVec 128 := BitVec.ofNat 128 (3 * 2 ^ 24 + log * 2 ^ 80 + 0x07a15ff4 * 2 ^ 96)
theorem witness_bind : let s := slotted 63 { token := poolTok 12 } false
    s.hostUp = true ∧ rdy.hostUp = false ∧ s.hslots[(63 : SlotId)].bound = false ∧ s.lark.opened = false ∧ s.hslots[(63 : SlotId)].token = poolTok 12 ∧
    (poolTok 12).toNat / 2 ^ 80 % 2 ^ 6 = 12 ∧ (poolTok 11).toNat / 2 ^ 80 % 2 ^ 6 < 12 := by
  and_intros <;> decide +kernel
theorem witness_pool : PoolAt rdy 0 32 ∧ PoolAt rdy 0xFE0 32 := by
  constructor <;> exact ⟨⟨0, 0, by decide +kernel, by decide +kernel, by decide +kernel, by decide +kernel⟩, rfl⟩
theorem witness_host_request : let s := slotted 1 { token := poolTok 12, bound := true } false
    s.hostUp = true ∧ s.hslots[(1 : SlotId)].bound = true ∧ s.lark.opened = false ∧ s.hslots[(1 : SlotId)].stale = false ∧ 0x1000 ≤ 2 ^ 12 ∧
    s.tokSealed (poolTok 12) = true ∧ s.tokObject (poolTok 12) = true ∧ (poolTok 12).getLsbD 24 = true ∧ (poolTok 12).getLsbD 25 = true ∧
    s.masterCheck (s.whoOf (.host 1)) 0 32 false = none ∧ s.masterCheck (s.whoOf (.host 1)) 0 32 true = none ∧ FabricIdle s none ∧
    PoolAt s 0 32 := by
  refine ⟨rfl, rfl, rfl, rfl, by decide, ?_, ?_, ?_, ?_, ?_, ?_, idle_of (by decide +kernel), ?_⟩
  all_goals first | decide +kernel | exact ⟨⟨0, 0, by decide +kernel, by decide +kernel, by decide +kernel, by decide +kernel⟩, rfl⟩
/-- A link that is up, with a vector masked and one that is not, and a link that is down. -/
theorem witness_host_ring_waits : let s := slotted 0 {} false
    s.pcie.enable = true ∧ s.pins.perst = true ∧ s.pcie.fmask = false ∧ s.pcie.link = true ∧
    ((s.bar0Write (0xC00 + 16 * 8 + 12) 0#32).bar0 (0xC00 + 16 * 8 + 12)).getLsbD 0 = false ∧ rdy.pcie.link = false :=
  ⟨rfl, rfl, rfl, rfl, rfl, rfl⟩
theorem witness_host_ring : let s := { rdy with pcie := { rdy.pcie with link := true } }
    CanWrite s (.alias_ keeper) (.die newt0 0x7F40) ∧ (s.bar0 (0xC00 + 16 * 63 + 12)).getLsbD 0 = true ∧
    ((s.bar0Write (0xC00 + 16 * 8 + 12) 0#32).bar0 (0xC00 + 16 * 8 + 12)).getLsbD 0 = false ∧ s.pcie.link = true :=
  ⟨⟨_, rfl, rfl, rfl⟩, rfl, rfl, rfl⟩
theorem witness_dma_control : CanWrite rdy (.alias_ keeper) (.die newt0 0x7800) ∧ CanWrite rdy (.alias_ keeper) (.die newt0 0x79FC) ∧
    CanWrite rdy (.alias_ keeper) (.die newt0 0x7504) ∧ CanWrite rdy (.alias_ keeper) (.die newt0 0x7400) ∧
    CanWrite rdy (.alias_ keeper) (.die newt0 0x7500) ∧ rdy.world keeper = .H ∧
    (∀ c : ChanId, rdy.dma[c].st = .idle) ∧ (rdy.die newt0).inval = none := by
  refine ⟨⟨_, rfl, rfl, rfl⟩, ⟨_, rfl, rfl, rfl⟩, ⟨_, rfl, rfl, rfl⟩, ⟨_, rfl, rfl, rfl⟩, ⟨_, rfl, rfl, rfl⟩, rfl, by decide +kernel, rfl⟩
/-- Channel 0 of die Newt 0 with its claim, and a context of the Host world with physical addresses. -/
def chan0 : ChanId := (List.finRange 56).find? (fun c => chanDie c == newt0 && chanLocal c == 0) |>.getD 0
def channel (x : Dma) : State :=
  let s := (claimed newt0 0x60 { holder := .engine keeper, world := .H }).n0Put 0x7800 0xE0000060#32
  { s with dma := s.dma.set chan0 x }
theorem witness_dma_go : let s := channel {}
    chanDie chan0 = newt0 ∧ s.dma[chan0].st = .idle ∧ (s.dGet newt0 0x7800).getLsbD 31 = true ∧
    (s.claimOf newt0 (0x60 + chanLocal chan0) = some { holder := .engine keeper, world := .H }) ∧
    CanWrite s (.alias_ keeper) (.die newt0 (0x7400 + 0x20 * chanLocal chan0)) :=
  ⟨by decide +kernel, by decide +kernel, rfl, by decide +kernel, _, rfl, rfl, rfl⟩
/-- A context for the keeper engine by its own alias; a channel with a request outstanding. -/
theorem witness_dma_context : (rdy.eng keeper).sup = true ∧ (0xC0000060#32).toNat % 2 ^ 7 = keeper.val ∧ rdy.world keeper = .H ∧
    (0xC0000060#32).getLsbD 29 = false ∧ rdy.inReset = false ∧ rdy.cutOff (.alias_ keeper) (.die 0 0x79F8) = false ∧
    (∀ c : ChanId, rdy.dma[c].st = .idle) ∧
    (let s := channel { out := some { write := false, fa := 0, len := 8, token := 0, data := 0, table := false } }
     s.dma[chan0].ctx < 64 ∧ (s.dma[chan0].out.map (·.resp)) = some none) :=
  ⟨rfl, rfl, by decide +kernel, rfl, rfl, by decide +kernel, by decide +kernel, by decide +kernel, by decide +kernel⟩
/-- An invalidation, and a burst that one of its entries has translated. -/
theorem witness_iommu (busy : Bool) : let i : IoInv := { ctx := 0, all := false, vpn := 5 }
    let s := (channel { xfer := if busy then some {
      stage := .read, src := { va := 0x5000, fa := 0, token := 0 }, dst := { va := 0, fa := 0, token := 0 }, len := 8, moved := 0, data := 0 }
      else none }).modDie newt0 fun y => { y with inval := some i }
    (s.die newt0).inval = some i ∧ chanDie chan0 = newt0 ∧ s.dma[chan0].under i = busy := by cases busy <;> decide +kernel
/-- A burst on another page of a 4 MiB entry that the invalidation has dropped. -/
theorem witness_iommu_large : let y : TlbEnt := { big := true, glob := false, vpn := 0, pa := 0, rights := 7 }
    let i : IoInv := { ctx := 0, all := false, vpn := 5, gone := [y] }
    let s := (channel { xfer := some {
      stage := .write, src := { va := 0x6000, fa := 0, token := 0 }, dst := { va := 0x500000, fa := 0, token := 0 }, len := 8, moved := 0, data := 0 } }).modDie
        newt0 fun y => { y with inval := some i }
    (s.die newt0).inval = some i ∧ y.covers (0x6000 / 4096) = true ∧ 0x6000 / 4096 ≠ i.vpn ∧ s.dma[chan0].under i = true := by decide +kernel
def desc (len : Nat) (last : Bool) : Desc := {
  ctx := 0, last := last, qos := 0, irq := false, hb := false, hbBank := 0, hbCode := 0
  len := len, src := 0x1F0, dst := 0x800, next := 0x40 }
def inPool (s : State) (a n acc : Nat) : Prop := (∃ sel, s.dmaXlat chan0 a n acc = (.ok (s.devId * 2 ^ 31 + a, sel), none)) ∧ PoolAt s a n ∧
  s.masterCheck (s.dmaWho chan0) a n (acc == accStore) = none
theorem witness_dma_work : let s := channel { st := .running, cur := 0x40#32 }
    s.dma[chan0].st = .running ∧ s.dma[chan0].next ≤ s.fc ∧ s.dma[chan0].now = none ∧ s.dma[chan0].out = none ∧ s.dma[chan0].xfer = none ∧
    inPool s 0x40 32 accLoad ∧ FabricIdle s none ∧ (s.dGet newt0 (0x7800 + 8 * s.dma[chan0].context)).getLsbD 29 = true ∧ s.lark.opened = true := by
  refine ⟨by decide +kernel, by decide +kernel, by decide +kernel, by decide +kernel, by decide +kernel,
    ⟨⟨_, rfl⟩, ⟨⟨0, 0, by decide +kernel, by decide +kernel, by decide +kernel, by decide +kernel⟩, rfl⟩, by decide +kernel⟩,
    idle_of (by decide +kernel), by decide +kernel, rfl⟩
/-- A burst between two banks, and one within a bank. -/
theorem witness_dma_burst : let s := channel { st := .running, now := some (desc 16 true) }
    s.dma[chan0].now = some (desc 16 true) ∧ s.dma[chan0].out = none ∧ s.dma[chan0].progress < 16 ∧
    min (16 - 0) (min (512 - 0x1F0 % 512) (512 - 0x800 % 512)) = 16 ∧ inPool s 0x1F0 16 accLoad ∧ inPool s 0x800 16 accStore ∧
    FabricIdle s none ∧ (∃ q, (s.wayTo newt0 0x800 16).head? = some q ∧ q ∈ s.wayTo newt0 0x1F0 16) := by
  refine ⟨by decide +kernel, by decide +kernel, by decide +kernel, rfl, ⟨⟨_, rfl⟩, ?_, by decide +kernel⟩, ⟨⟨_, rfl⟩, ?_, by decide +kernel⟩,
    idle_of (by decide +kernel), _, rfl, by decide +kernel⟩ <;>
    exact ⟨⟨0, 0, by decide +kernel, by decide +kernel, by decide +kernel, by decide +kernel⟩, rfl⟩

theorem witness_dma_burst_apart : let k := { desc 16 true with dst := 0x2000000 }
    let s := channel { st := .running, now := some k }
    s.dma[chan0].now = some k ∧ min (16 - 0) (min (512 - 0x1F0 % 512) (512 - 0x2000000 % 512)) = 16 ∧ inPool s 0x2000000 16 accStore ∧
    FabricIdle s none ∧ ∀ q ∈ s.wayTo newt0 0x1F0 16, q ∉ s.wayTo newt0 0x2000000 16 := by
  refine ⟨by decide +kernel, rfl, ⟨⟨_, rfl⟩, ⟨⟨1, 0, ?_⟩, rfl⟩, by decide +kernel⟩, idle_of (by decide +kernel), by decide +kernel⟩
  and_intros <;> decide +kernel

/-- The write of a burst: the last one of a descriptor that gives bank 15 back and interrupts, of the last descriptor or not, and
one at whose first port another beat has been granted in this fc. -/
def writing (last : Bool) : State := channel { st := .running, now := some { desc 16 last with irq := true, hb := true, hbBank := 15, hbCode := 0 }, xfer := some {
  stage := .write, src := { va := 0x1F0, fa := 0x1F0, token := 0 }, dst := { va := 0x800, fa := 0x800, token := 0 }, len := 16, moved := 0, data := 5 } }
theorem witness_dma_write (last : Bool) : let s := writing last
    ∃ k q, s.dma[chan0].st = .running ∧ s.dma[chan0].out = none ∧ s.dma[chan0].next ≤ s.fc ∧ s.dma[chan0].now = some k ∧
      s.dma[chan0].xfer = some q ∧ q.stage = .write ∧ q.moved = 0 ∧ 0 < q.len ∧ q.dst.fa = s.devId * 2 ^ 31 + 0x800 ∧
      PoolAt s 0x800 q.len ∧ FabricIdle s none ∧ k.hbBank < 16 ∧ s.borrowed (s.ctxEngine newt0 k.ctx) k.hbBank = false ∧ k.len ≤ 0 + q.len := by
  cases last <;> refine ⟨_, _, by decide +kernel, by decide +kernel, by decide +kernel, rfl, rfl, rfl, rfl, by decide, by decide +kernel,
    ⟨⟨0, 0, ?_⟩, rfl⟩, idle_of (by decide +kernel), by decide, by decide +kernel, by decide⟩ <;> and_intros <;> decide +kernel
theorem witness_dma_write_waits : let s := (writing true).modDie newt0 fun y => { y with
      granted := match ((writing true).wayTo newt0 0x800 16).head? with | some p => smPut (fun _ => 0) y.granted p.2 1 | none => [] }
    s.beats = [] ∧ ∃ p, (s.wayTo newt0 0x800 16).head? = some p ∧ smGet (fun _ => 0) (s.die p.1).granted p.2 = s.fc + 1 :=
  ⟨rfl, _, rfl, by decide +kernel⟩

/-! ### Tables, lanes and links -/

theorem witness_configuration : let s := claimed newt0 0x31 { holder := .engine keeper, world := .H }
    CanWrite s (.alias_ keeper) (.die newt0 (0x8000 + 0x4000 * 1 + 0x100 * 0x31 + 2 * 119)) ∧ (s.die newt0).active = false ∧
    s.claimOf newt0 0x31 = some { holder := .engine keeper, world := .H } ∧ CanWrite s (.alias_ keeper) (.die 0 0x7D4C) ∧
    CanWrite s (.alias_ keeper) (.die newt0 0x6000) ∧ CanWrite s (.alias_ keeper) (.die newt0 0x3000) ∧
    CanWrite s (.alias_ keeper) (.die newt0 0x3300) ∧ CanWrite s (.alias_ keeper) (.die newt0 0x4210) := by
  refine ⟨⟨_, rfl, rfl, rfl⟩, rfl, rfl, ⟨_, rfl, rfl, rfl⟩, ⟨_, rfl, rfl, rfl⟩, ⟨_, rfl, rfl, rfl⟩, ⟨_, rfl, rfl, rfl⟩, ⟨_, rfl, rfl, rfl⟩⟩
/-- Rates at the limits and beside them, and an enabled quad. -/
theorem witness_quads : (100 * 10000000 = 1000000000 ∧ 3200 * 10000000 = 32000000000 ∧ ¬(1000000000 ≤ 99 * 10000000)) ∧
    (rdy.dGet newt0 0x3000).getLsbD 31 = false ∧ ((rdy.n0Put 0x3000 0x80064000#32).dGet newt0 0x3000).getLsbD 31 = true := by
  refine ⟨by decide, rfl, rfl⟩
/-- Lane 0 in a state, on quad 0 with a configuration. -/
def lane (x : Lane) (cfg : Word) : State := let s := rdy.n0Put 0x3000 cfg; { s with lanes := s.lanes.set 0 x }
/-- A good block with a word 1, its trailer with the kind and sequence number. -/
def block (w : Word) (kind seq : Nat) : FeBlock :=
  let b : FeBlock := { words := [0, w], trailer := BitVec.ofNat 64 (kind * 2 ^ 44 + seq * 2 ^ 32) }
  { b with trailer := b.trailer ||| (blockCrc b).setWidth 64 }
def lane0 (st : LaneSt) (f : Lane → Lane := id) : Lane := f { st := st }
theorem witness_lane_training (st : LaneSt) : let s := lane (lane0 st fun x => { x with wasUp := true }) 0xE0064000#32
    s.lanes[(0 : LaneId)].st = st ∧ s.lanes[(0 : LaneId)].wasUp = true ∧ s.lanes[(0 : LaneId)].helloSeen = false ∧
    s.lanes[(0 : LaneId)].tx = [] ∧ s.noVersion 0 = false ∧
    (s.laneCfg 0).getLsbD 29 = true ∧ (s.laneCfg 0).getLsbD 30 = true ∧ (s.die (laneDie 0)).mode ≠ 10 := by
  cases st <;> and_intros <;> decide +kernel
/-- A good block and a bad one. -/
theorem witness_d2d_block : let b : D2dBlk := { data := List.replicate 256 7, crc := crc32c (List.replicate 256 7) }
    (b.data.length = 256 ∧ crc32c b.data = b.crc) ∧ ¬({ b with data := [] }.data.length = 256) := ⟨⟨List.length_replicate, rfl⟩, by decide⟩
theorem witness_d2d (n : Nat) (down waiting : Bool) : let s := rdy.modDie newt0 fun y => { y with
      d2d := y.d2d.set 3 { expect := n, waiting := waiting, resends := 8, down := down } }
    (s.die newt0).d2d[(3 : Fin 6)].down = down ∧ (s.die newt0).d2d[(3 : Fin 6)].expect = n ∧
    (s.die newt0).d2d[(3 : Fin 6)].waiting = waiting ∧ (s.die newt0).d2d[(3 : Fin 6)].resends = 8 ∧ (newt0.val < 6 → (3 : Fin 6).val < 4) :=
  ⟨rfl, rfl, rfl, rfl, by decide⟩
theorem witness_hello_block : badBlock (block 0x02010307#32 1 0) = false ∧ (block 0x02010307#32 1 0).trailer.toNat / 2 ^ 44 % 16 = 1 := by
  decide +kernel
/-- A good DATA block in each place of the window, and a bad block. -/
theorem witness_lane_blocks : badBlock (block 1 0 5) = false ∧ (block 1 0 5).trailer.toNat / 2 ^ 44 % 16 = 0 ∧
    (BitVec.ofNat 12 ((block 1 0 4095).trailer.toNat / 2 ^ 32) : BitVec 12) = 4095 ∧ badBlock { block 1 0 5 with words := [] } = true ∧
    ((0 : BitVec 12) - 1).toInt < 0 ∧ ((8 : BitVec 12) - 0).toInt = 8 ∧ ((7 : BitVec 12) - 0).toInt = 7 := by decide +kernel
/-- A replay lane, ACTIVE with its transmitter on: nothing to send, within a HELLO block, and with an ACK that starts in 8 fc. -/
theorem witness_lane_blocks_sends : let s := (lane (lane0 .active fun x => { x with schedOn := 0 }) 0xF0064000#32).dPut newt0 0x3700 0x40000000#32
    s.lanes[(0 : LaneId)].st = .active ∧ (s.laneCfg 0).getLsbD 28 = true ∧ (s.laneCfg 0).getLsbD 29 = true ∧ (s.laneCfg 0).getLsbD 30 = true ∧
    s.lanes[(0 : LaneId)].schedOn.toNat / 2 ^ 28 % 8 ≠ 7 ∧ s.lanes[(0 : LaneId)].resends = [] ∧ s.lanes[(0 : LaneId)].seqlock = false ∧
    (s.dGet newt0 0x3700).toNat / 2 ^ 8 % 2 ^ 8 = 0 ∧ (s.dGet newt0 0x3704).getLsbD 31 = false ∧ s.fc + 8 < s.fc + s.blockFc 0 ∧
    (∀ m ∈ s.lanes[(0 : LaneId)].tx, m.start < s.fc ∧ m.what.isHello = false) := by and_intros <;> first | rfl | decide +kernel
/-- A lane without a replay: with CADL 7 and nothing held, and with a limit of one request. -/
theorem witness_lane_blocks_cadl : let s := (lane (lane0 .active fun x => { x with
      schedOn := 0x70000000#32, seqlock := true, ver := 3, ne := 5 }) 0x90064000#32).dPut newt0 0x3700 0x40000100#32
    s.lanes[(0 : LaneId)].st = .active ∧ (s.laneCfg 0).getLsbD 28 = true ∧ (s.laneCfg 0).getLsbD 29 = false ∧
    s.lanes[(0 : LaneId)].schedOn.toNat / 2 ^ 28 % 8 = 7 ∧ s.lanes[(0 : LaneId)].held = [] ∧ (s.die newt0).mode ≠ 11 ∧
    (s.dGet newt0 0x3700).toNat / 2 ^ 8 % 2 ^ 8 = 1 ∧ (s.dGet newt0 0x3704).getLsbD 31 = false ∧
    (BitVec.ofNat 12 ((block 1 0 5).trailer.toNat / 2 ^ 32) : BitVec 12) = s.lanes[(0 : LaneId)].ne := by and_intros <;> decide +kernel
theorem witness_nak_timer : let s := { lane (lane0 .active fun x => { x with schedOn := 0, timers := [(5, 90)], resends := [(5, 3)] }) 0xF0064000#32 with fc := 90 }
    ((5 : BitVec 12), 90) ∈ s.lanes[(0 : LaneId)].timers ∧ 90 ≤ s.fc ∧ s.lanes[(0 : LaneId)].held = [] ∧
    s.lanes[(0 : LaneId)].wasLocked = false ∧ s.lanes[(0 : LaneId)].resends = [(5, 3)] := by and_intros <;> decide +kernel
/-- Lane 0 ACTIVE at number 5, with the resend limit at 0, its release due, and entry 0 of its routes to an engine queue. -/
def releasing (held : List Held) : State :=
  let s := ((lane (lane0 .active fun x => { x with
    ver := 3, seqlock := true, ne := 5, held := held, sched := 0x00000000#32, schedOn := 0x00000000#32, schedAt := 0 }) 0xB0064000#32).dPut
      newt0 0x6000 1#32).dPut newt0 0x3700 0x40000000#32
  { s with fc := 64 }
theorem witness_release_point : let s := releasing [{ seq := 5, words := [], febad := false }]
    s.lanes[(0 : LaneId)].st = .active ∧ (s.laneCfg 0).getLsbD 28 = true ∧ s.lanes[(0 : LaneId)].schedOn.toNat / 2 ^ 28 % 8 ≠ 7 ∧
    s.lanes[(0 : LaneId)].sched = s.lanes[(0 : LaneId)].schedOn ∧ s.lanes[(0 : LaneId)].relAt ≠ some s.fc ∧
    s.relDue s.lanes[(0 : LaneId)].schedOn = true ∧ (s.die (laneDie 0)).mode ≠ 11 ∧ (s.dGet newt0 0x6000).toNat % 4 = 1 ∧
    (s.dGet newt0 0x6010).toNat % 4 = 0 ∧ (s.dGet newt0 0x3700).toNat / 2 ^ 8 % 2 ^ 8 = 0 ∧ (s.dGet newt0 0x3704).getLsbD 31 = false := by
  and_intros <;> decide +kernel
/-- Routes to a Foxglove, without empty groups and with an end marker, and to a Pool ring. -/
theorem witness_release_point_routes (w : Word) (h : w = 0x32 ∨ w = 3) : let s := (releasing []).dPut newt0 0x6000 w
    s.relDue s.lanes[(0 : LaneId)].schedOn = true ∧ (s.dGet newt0 0x6000).toNat % 4 = (if w = 3 then 3 else 2) ∧
    (∀ k, k < 4 → k ≠ 0 → (s.dGet newt0 (0x6000 + 0x10 * k)).toNat % 4 = 0) := by
  rcases h with rfl | rfl <;> refine ⟨by decide +kernel, by decide +kernel, by decide +kernel⟩
theorem witness_routed_group_fox : let g : Group := { lane := 0, kind := 2, target := 1, queue := 0, sched := false, data := 0x80000003 }
    let s := { rdy.dPut 1 0x6000 0x81000600#32 with groups := (Vector.replicate 2 []).set 0 [g] }
    s.groups[(0 : Fin 2)] = [g] ∧ FabricIdle { s with groups := .replicate 2 [] } none ∧ (∃ p, s.groupPort g = some p) ∧ s.foxReady 1 = true ∧
    (s.die 1).mode ≠ 0 ∧ (s.die 1).mode ≠ 11 ∧ (s.dGet 1 0x6000).getLsbD 31 = true ∧ s.fox[(1 : GeckoId)].late = [] ∧
    s.fox[(1 : GeckoId)].waiting = [] ∧ s.fox[(1 : GeckoId)].queue.length ≤ 24 := by
  refine ⟨rfl, idle_of (by decide +kernel), ⟨_, rfl⟩, ?_⟩; and_intros <;> decide +kernel
theorem witness_routed_group : let g : Group := { lane := 0, kind := 1, target := 3, queue := 15, sched := false, data := 0 }
    let h : Group := { g with kind := 3, target := 0 }
    let s (g : Group) : State := { rdy with groups := (Vector.replicate 2 []).set 0 [g] }
    (s g).groups[(0 : Fin 2)] = [g] ∧ (∀ k : Fin 2, k ≠ 0 → (s g).groups[k] = []) ∧
    FabricIdle { s g with groups := .replicate 2 [] } none ∧ FabricIdle { s h with groups := .replicate 2 [] } none ∧
    (∃ p, (s g).groupPort g = some p) ∧ (∃ p, (s h).groupPort h = some p) ∧ (s g).physOf 3 = some 3 ∧ (s g).engReady 3 = true ∧
    ((s g).eng 3).iqHeld = [] ∧ ((s g).eng 3).iq.getD 15 [] = [] ∧ PoolAt (s h) 0 32 := by
  refine ⟨rfl, by decide +kernel, idle_of (by decide +kernel), idle_of (by decide +kernel), ⟨_, rfl⟩, ⟨_, rfl⟩, by decide +kernel, rfl, rfl, rfl,
    ⟨⟨0, 0, ?_⟩, rfl⟩⟩
  and_intros <;> decide +kernel
theorem witness_lane_map : rdy.mapStale = false ∧ ({ rdy with mapStale := true } : State).mapStale = true := ⟨rfl, rfl⟩

/-! ### Chain -/

/-- The rates of MULT 125 and 700 are the limits at EXPREF 40 MHz. -/
theorem witness_chain_ports : CanWrite rdy (.alias_ keeper) (.die newt0 0x5810) ∧ CanWrite rdy (.alias_ keeper) (.die newt1 0x5818) ∧
    (rdy.n0 0x5810).getLsbD 31 = false ∧ (rdy.n0 0x5810).getLsbD 30 = false ∧ 2 * 125 * 40000000 = 10000000000 ∧
    2 * 700 * 40000000 = 56000000000 ∧ CanWrite rdy (.alias_ keeper) (.die newt0 0x5800) ∧ CanWrite rdy (.alias_ keeper) (.die newt0 0x5804) ∧
    (rdy.n0 0x5800).getLsbD 31 = false := by
  refine ⟨⟨_, rfl, rfl, rfl⟩, ⟨_, rfl, rfl, rfl⟩, rfl, rfl, rfl, rfl, ⟨_, rfl, rfl, rfl⟩, ⟨_, rfl, rfl, rfl⟩, rfl⟩
/-- Port 1 of Newt 0 enabled, up or down. -/
def port (x : ChainPort) : State := let s := (rdy.n0Put 0x5818 0x807D0000#32).n0Put 0x5900 0x00001000#32; { s with
    sealKey := 0, ports := s.ports.set 1 x }
theorem witness_chain_port (up : Bool) : let s := port { up := up, replay := [pkt 0 []] }
    (s.dGet newt0 (0x5810 + 8 * (1 % 2))).getLsbD 31 = true ∧ s.ports[(1 : PortId)].up = up ∧ s.ports[(1 : PortId)].ttUnit = none ∧
    s.ports[(1 : PortId)].replay ≠ [] ∧ s.claimOf newt0 0x50 = none := by cases up <;> and_intros <;> decide +kernel
theorem witness_chain_port_unit : let s := port { ttUnit := some 3 }
    s.ports[(1 : PortId)].ttUnit ≠ none ∧ s.ports[(1 : PortId)].replay = [] := by decide +kernel
/-- STOP at the last number of hops and beyond it, and SETID. -/
theorem witness_chain_stop : let s := port { up := true }
    let k := timed 7 [3, 1]
    Arrives s 1 k 7 ∧ k.hops.toNat < 254 ∧ Arrives s 1 (sealPkt { k with hops := 254 }) 7 ∧ Arrives s 1 (timed 8 [9]) 8 ∧ Arrives s 1 (timed 8 []) 8 ∧ s.inReset = false := by
  refine ⟨⟨by decide +kernel, by decide +kernel, by decide, by decide, by decide⟩, by decide, ⟨by decide +kernel, by decide +kernel, by decide, by decide, by decide⟩,
    ⟨by decide +kernel, by decide +kernel, by decide, by decide, by decide⟩, ⟨by decide +kernel, by decide +kernel, by decide, by decide, by decide⟩, rfl⟩
/-- A read or a write of 8 bytes of the Pool, with a token or without. -/
def asked (kind : BitVec 4) (data : List Word) (vc : BitVec 2) (tok : Option (BitVec 128)) : Packet := sealPkt { pkt kind data with
  vc := vc, len := 2, tok := tok, addr := 0 }
theorem witness_chain_request : let s := port { up := true }
    pktGood (asked 0 [] 2 (some (poolTok 12))) = true ∧ pktGood (asked 1 [1, 2] 2 none) = true ∧
    (asked 0 [] 2 none).addr.toNat / 2 ^ 31 = (asked 0 [] 2 none).dst.toNat ∧ (asked 0 [] 2 none).dst.toNat = s.devId ∧
    (asked 0 [] 2 none).posted = false ∧ s.chainHop 3 = some 1 ∧ s.chainToken (asked 0 [] 2 none) = none := by
  and_intros <;> decide +kernel
/-- A packet for another package, with hops left and with none; a reserved kind, and a request for another package's address. -/
theorem witness_chain_forward : let s := port { up := true }
    let k := sealPkt { pkt 2 [5] with dst := 3 }
    pktGood k = true ∧ k.vc ≠ 0 ∧ k.dst.toNat ≠ s.devId ∧ k.hops.toNat < 254 ∧ s.chainHop k.dst.toNat = some 1 ∧
    254 ≤ (sealPkt { k with hops := 254 }).hops.toNat ∧ pktGood (pkt 9 []) = true ∧ (pkt 9 []).dst.toNat = s.devId ∧
    (let k := sealPkt { pkt 0 [] with len := 2, addr := 0x80000000 }; pktGood k = true ∧ k.addr.toNat / 2 ^ 31 ≠ k.dst.toNat) := by
  and_intros <;> decide +kernel
/-- A packet that has a port to leave by, one that has none and a requester that has, and one whose route is down. -/
theorem witness_chain_forward_ways : let s := port { up := true }
    let t := s.modDie newt0 fun y => { y with d2d := y.d2d.map fun z => { z with down := true } }
    FabricIdle s none ∧ s.chainHop 5 = none ∧ s.chainHop 3 = some 1 ∧ pktGood (sealPkt { asked 0 [] 2 none with dst := 5 }) = true ∧
    t.routeDown (chnDie 2) (newtDie (portNewt 1)) = true ∧ t.chainHop 3 = some 1 := by
  refine ⟨idle_of (by decide +kernel), ?_⟩; and_intros <;> decide +kernel
/-- A packet of VC1 whose CRC is wrong, a write that the checks refuse (the Keeper's scratchpad is not Trigger-world memory). -/
theorem witness_chain_refused : let s := port { up := true }
    let k := { asked 1 [1, 2] 1 none with crc := 0 }
    let z := { s with lark := { s.lark with opened := false } }
    pktGood k = false ∧ k.vc = 1 ∧ k.kind = 1 ∧
    (∃ r, z.masterCheck { acc := accessOf z (.chain .T), party := .other } (0x10000000 + 96 * 0x40000) 8 true = some r) ∧
    (∀ (d : DieId) (j : Fin 6), (s.die d).d2d[j].down = false) := by
  refine ⟨by decide +kernel, rfl, rfl, ⟨_, rfl⟩, ?_⟩
  decide +kernel
theorem witness_chain_token : let s := port { up := true }
    s.chainToken (asked 1 [1, 2] 2 (some (poolTok 12))) = some (poolTok 12) ∧
      s.masterCheck { acc := accessOf s (.chain (s.tokWorld (poolTok 12))), party := .other } 0 8 true = none ∧ FabricIdle s none ∧
      PoolAt s 0 8 ∧ s.lark.opened = true := by
  refine ⟨by decide +kernel, by decide +kernel, idle_of (by decide +kernel), ⟨⟨0, 0, ?_⟩, rfl⟩, rfl⟩
  and_intros <;> decide +kernel
/-- A channel and an engine that wait for a response. -/
theorem witness_chain_response_to : let q : ChainReq := { reqid := 7, who := .channel chan0, sent := 0, write := false, addr := 0, len := 4 }
    let z : DmaReq := { write := false, fa := 0, len := 4, token := 0, data := 0, table := false }
    let s := { channel { out := some z } with chainReqs := [q, { q with reqid := 8, who := .engine 0 }] }
    s.chainReqs = q :: [{ q with reqid := 8, who := .engine 0 }] ∧ s.dma[chan0].out = some z := ⟨rfl, by decide +kernel⟩
theorem witness_chain_response : let q : ChainReq := { reqid := 7, who := .host 0, sent := 0, write := false, addr := 0, len := 4 }
    let s := { port { up := true } with chainReqs := [q] }
    s.chainReqs = [q] ∧ (pkt 2 [5]).reqid = q.reqid ∧ (pkt 2 [5]).dst.toNat = s.devId ∧ pktGood (pkt 2 [5]) = true ∧
    q.sent + 2 ^ 20 ≤ 2 ^ 20 ∧ s.fc < q.sent + 2 ^ 20 := by and_intros <;> decide +kernel
/-- A posted write of VC1 that is due, and one that arrives before it is. -/
theorem witness_vc1 : let k := sealPkt { asked 1 [1, 2] 1 (some (poolTok 12)) with posted := true }
    let s := port { up := true, vc1 := [(0, k, .T)] }
    s.ports[(1 : PortId)].vc1 = [(0, k, .T)] ∧ 0 ≤ s.fc ∧ k.kind = 1 ∧ k.posted = true ∧ k.data.length = k.len.toNat ∧ pktGood k = true ∧
    k.tok = some (poolTok 12) ∧ s.chainToken k = some (poolTok 12) ∧ s.fc ≤ s.vc1Due 1 k.slot ∧ FabricIdle s none ∧
    k.addr.toNat / 2 ^ 31 = s.devId ∧ k.addr.toNat / 2 ^ 31 = k.dst.toNat := by
  refine ⟨rfl, Nat.zero_le _, ?_, ?_, ?_, ?_, ?_, ?_, ?_, idle_of (by decide +kernel), ?_, ?_⟩ <;> decide +kernel
/-- One that has come too late: MINDLY is 20, VC1DLY 0. -/
theorem witness_vc1_late : let s := { (port { up := true }).n0Put 0x581C 20#32 with fc := 5000 }
    let k := sealPkt { asked 1 [1, 2] 1 (some (poolTok 12)) with posted := true }
    s.vc1Due 1 k.slot < s.fc ∧ s.chainToken k = some (poolTok 12) ∧
    s.masterCheck { acc := accessOf s (.chain (s.tokWorld (poolTok 12))), party := .other } 0 8 true = none ∧ FabricIdle s none := by
  refine ⟨by decide +kernel, by decide +kernel, by decide +kernel, idle_of (by decide +kernel)⟩
/-- Channel 7 with port 0 as its only input, with the local input, and with two ports. -/
def reducing (cfg : Word) (tags : List RedTag) : State := { ((port { up := true }).n0Put 0x5A70 cfg) with reds := rdy.reds.set 7 { tags := tags } }
def redWord (tag : Nat) : Dword := BitVec.ofNat 64 (tag * 2 ^ 32 + 7 * 2 ^ 44)
theorem witness_reduction : let s := reducing 0x82020000#32 []
    (s.n0 0x5A70).getLsbD 31 = true ∧ (s.n0 0x5A70).toNat / 2 ^ 28 % 8 < 6 ∧ s.ports[(1 : PortId)].up = true ∧
    (redWord 9).toNat / 2 ^ 44 % 8 = 7 ∧ (s.n0 0x5A70).getLsbD 25 = true ∧ (s.n0 0x5A70).getLsbD 20 = false ∧
    (∀ q : PortId, q ≠ 1 → (s.n0 0x5A70).getLsbD (24 + q) = false) ∧ s.reds[(7 : RedId)].tags = [] := by and_intros <;> decide +kernel
theorem witness_reduction_local : CanWrite (reducing 0xD2120000#32 []) (.chain .T) (.die newt0 0x5A74) := ⟨_, rfl, rfl, rfl⟩
theorem witness_reduction_second : let t : RedTag := { tag := 9, since := 0, inputs := [(4, redWord 9)] }
    let s := reducing 0xD2120000#32 [t]
    s.reds[(7 : RedId)].tags = [t] ∧ (s.n0 0x5A70).getLsbD 20 = true ∧ (∀ q : PortId, (s.n0 0x5A70).getLsbD (24 + q) = decide (q = 1)) ∧
    (s.n0 0x5A70).toNat / 2 ^ 28 % 8 = 5 := by
  refine ⟨rfl, rfl, by decide +kernel, rfl⟩
theorem witness_reduction_queued : let t : RedTag := { tag := 9, since := 0, inputs := [(4, redWord 9)] }
    let s := reducing 0xD2120000#32 [t]
    let u := { s with reds := s.reds.set 7 { tags := [t], queued := [(9, redWord 9)] } }
    u.reds[(7 : RedId)].queued = [(t.tag, redWord 9)] ∧ (∀ q ∈ s.reds[(7 : RedId)].queued, q.1 ≠ t.tag) ∧
    (u.reds[(7 : RedId)].tags.filter fun t => t.inputs.any fun p => p.1 == 4).length + u.reds[(7 : RedId)].queued.length = 2 ∧
    CanWrite u (.chain .T) (.die newt0 0x5A74) :=
  ⟨rfl, fun q (h : q ∈ ([] : List (BitVec 12 × Dword))) => (List.not_mem_nil h).elim, rfl, _, rfl, rfl, rfl⟩
theorem witness_reduction_sink : let s := reducing 0x83010303#32 [{ tag := 9, since := 0, inputs := [(0, redWord 9)] }]
    (s.n0 0x5A70).getLsbD 16 = true ∧ (s.n0 0x5A70).getLsbD 17 = false ∧ s.physOf ((s.n0 0x5A70).toNat / 2 ^ 8 % 2 ^ 7) = some 3 ∧
    (s.eng 3).iqHeld = [] ∧ ((s.eng 3).iq.getD 3 []).length + 8 ≤ 64 ∧ (s.n0 0x5A7C).toNat % 2 ^ 12 ≤ s.fc + 2 ^ 12 ∧ FabricIdle s none := by
  refine ⟨?_, ?_, ?_, ?_, ?_, ?_, idle_of (by decide +kernel)⟩ <;> decide +kernel


/-! ### Pattern associators, package -/

/-- Foxglove 1 online and enabled with its queue. -/
def fox (f : Fox → Fox) : State := let s := rdy.dPut 1 0x6000 0x81000600#32; { s with fox := s.fox.set 1 (f s.fox[(1 : Fin 6)]), fc := 5000 }
def ctx (out : Option (List (BitVec 128))) : FoxCtx := { hits := [], segon := 0xFF, out := out, ready := 0 }
def fronted (w : Word) : Prop := let s := fox fun x => { x with queue := [(w, true, 10)], ctxs := [ctx none] }
  s.fox[(1 : GeckoId)].queue = [(w, true, 10)] ∧ s.fox[(1 : GeckoId)].drops = [] ∧ s.fox[(1 : GeckoId)].late = [] ∧
    s.fox[(1 : GeckoId)].waiting = [] ∧ ¬(s.fc < 10) ∧ ¬(s.fox[(1 : GeckoId)].lastApply = s.fc) ∧
    s.fox[(1 : GeckoId)].ctxs = [] ++ ctx none :: []
theorem witness_foxglove_queue : fronted 0 ∧ fronted 0x41230123 ∧ fronted 0x80000003 ∧ fronted 0xC0000000 := by
  unfold fronted; and_intros <;> decide +kernel
theorem witness_foxglove_full : let s := fox fun x => { x with ctxs := List.replicate 4 (ctx (some [1])) }
    (∀ c ∈ s.fox[(1 : GeckoId)].ctxs, c.out ≠ none) ∧ 4 ≤ s.fox[(1 : GeckoId)].ctxs.length ∧
    (∀ c ∈ s.fox[(1 : GeckoId)].ctxs, c.out ≠ some []) := by decide +kernel
theorem witness_foxglove_output : let s := (fox fun x => { x with ctxs := [ctx (some [7, 8])], buf := [6] }).dPut 1 0x6014 0x800000F2#32
    s.fox[(1 : GeckoId)].ctxs = [ctx (some [7, 8])] ∧ s.fox[(1 : GeckoId)].lastOut < s.fc ∧ s.fox[(1 : GeckoId)].buf = [6] ∧
    s.fox[(1 : GeckoId)].holding = false ∧ (s.dGet 1 0x6014).getLsbD 31 = true ∧ (s.die 1).mode ≠ 11 ∧
    s.physEng 1 ((s.dGet 1 0x6014).toNat % 16) = some 18 ∧ (s.eng 18).iqHeld = [] ∧ FabricIdle s none ∧ s.roadOut 1 = false := by
  refine ⟨by decide +kernel, by decide +kernel, by decide +kernel, by decide +kernel, by decide +kernel, by decide +kernel, by decide +kernel, rfl,
    idle_of (by decide +kernel), by decide +kernel⟩
/-- A queue without room for a pair, and a hold that ends with a pair left. -/
theorem witness_foxglove_output_full : let s := (fox fun x => { x with buf := [1, 2, 3, 4], holding := true }).dPut 1 0x6014 0x800000F2#32
    let f := s.modEng 18 fun g => { g with iq := g.iq.set 15 (List.replicate 57 0) }
    s.fox[(1 : GeckoId)].buf = [1, 2, 3, 4] ∧ s.fox[(1 : GeckoId)].holding = true ∧ s.roadOut 1 = false ∧ FabricIdle s none ∧
    64 < ((f.eng 18).iq.getD 15 []).length + 8 := by
  refine ⟨by decide +kernel, by decide +kernel, by decide +kernel, idle_of (by decide +kernel), by decide +kernel⟩
/-- One register write not yet in force, and requests of both directions. -/
theorem witness_foxglove_late : let s := fox fun x => { x with late := [(5002, 0x6008, 0xF0)] }
    let f := fox fun x => { x with segReq := [(5000, 0x80)] }
    s.fox[(1 : GeckoId)].late = [(5002, 0x6008, 0xF0)] ∧ 5001 < 5002 ∧ f.fox[(1 : GeckoId)].segReq = [(5000, 0x80)] ∧ 5000 ≤ f.fc ∧
    (f.dGet 1 0x600C).getLsbD 7 = false ∧ (0x80 : Word) = f.dGet 1 0x600C ||| BitVec.ofNat 32 (2 ^ 7) ∧
    ((f.dPut 1 0x600C 0x81#32).dGet 1 0x600C).getLsbD 7 = true := by and_intros <;> decide +kernel
/-- A Gecko whose clock is gated, by its mode or by a disabled Foxglove in MD9; bits of FOX_STAT that are to be set. -/
theorem witness_foxglove_gated : let s := (rdy.modDie 1 fun y => { y with mode := 9 })
    (s.die 1).mode = 9 ∧ (s.dGet 1 0x6000).getLsbD 31 = false ∧ s.fox[(1 : GeckoId)].late = [] ∧ s.fox[(1 : GeckoId)].ctxs = [] ∧
    s.fox[(1 : GeckoId)].segReq = [] ∧ s.fox[(1 : GeckoId)].marks = [] ∧ ((rdy.modDie 1 fun y => { y with mode := 0 }).die 1).mode = 0 ∧
    (let f := fox fun x => { x with marks := [(5000, 0x6004, 0, 0x10000000)] }
     f.fox[(1 : GeckoId)].marks = [(5000, 0x6004, 0, 0x10000000)] ∧ f.fox[(1 : GeckoId)].queue = [] ∧ 5000 ≤ f.fc) ∧
    CanWrite (fox id) (.alias_ keeper) (.die 1 0x6004) := by
  refine ⟨rfl, rfl, rfl, rfl, rfl, rfl, rfl, ⟨rfl, rfl, by decide⟩, ⟨_, rfl, rfl, rfl⟩⟩
theorem witness_foxglove_held : let s := fox fun x => { x with buf := [6, 7], holding := true, waiting := [(0, 0xFFFFFFFF, none)] }
    s.fox[(1 : GeckoId)].holding = true ∧ s.fox[(1 : GeckoId)].buf = [6, 7] ∧ s.fox[(1 : GeckoId)].waiting = [(0, 0xFFFFFFFF, none)] :=
  ⟨rfl, rfl, rfl⟩
theorem witness_foxglove_input : let s := fox id
    s.inReset = false ∧ (∀ (d : DieId) (j : Fin 6), (s.die d).d2d[j].down = false) ∧
    s.masterCheck (s.whoOf (.alias_ keeper)) (0x14400000 + 0x800000) 32 true = none ∧ s.foxReady 1 = true ∧ (s.die 1).mode ≠ 0 ∧
    (s.dGet 1 0x6000).getLsbD 31 = true ∧ CanWrite s (.alias_ keeper) (.die 1 0x6000) := by
  refine ⟨?_, ?_, ?_, ?_, ?_, ?_, _, rfl, rfl, rfl⟩ <;> decide +kernel
theorem witness_scrub_parity : let s := fox fun x => { x with online := 0x80, scrub := 32767, array := [(32767, 2 ^ 160)], parity := [(32767, 3)] }
    s.fox[(1 : GeckoId)].scrubAt = none ∧ (∃ q ∈ s.fox[(1 : GeckoId)].parity, q.1 = 32767) ∧ s.ecc = [] ∧
    (fox fun x => { x with scrubAt := some 5000 }).fox[(1 : GeckoId)].scrubAt = some (fox id).fc := by
  refine ⟨by decide +kernel, ⟨(32767, 3), by decide +kernel, rfl⟩, rfl, by decide +kernel⟩
theorem witness_segment : let s := fox fun x => { x with checking := 0x80 }
    CanWrite (fox id) (.alias_ keeper) (.die 1 0x600C) ∧ (s.dGet 1 0x600C).toNat < 256 ∧ (fox id).fox[(1 : GeckoId)].online = 0 ∧
    s.fox[(1 : GeckoId)].checking.getLsbD 7 = true ∧ s.fox[(1 : GeckoId)].checkAt[(7 : Fin 8)] + 4096 ≤ s.fc ∧
    (fox id).segIdle 1 7 = true ∧ (fox id).ecc = [] := by
  refine ⟨⟨_, rfl, rfl, rfl⟩, ?_⟩; and_intros <;> decide +kernel
theorem witness_scrub : let s := fox fun x => { x with online := 0x80, scrub := 32767, array := [(32767, 2 ^ 160)] }
    s.fox[(1 : GeckoId)].scrub < 32768 ∧ s.fox[(1 : GeckoId)].online.getLsbD (32767 / 4096) = true ∧
    s.fox[(1 : GeckoId)].array.Pairwise (fun p q => p.1 < q.1) ∧
    ({ s with ecc := [(wordKey 0x30001 (4 * 32767 + 3), 2)] } : State).eccOf (wordKey 0x30001 (4 * 32767 + 3)) = 2 := by
  and_intros <;> decide +kernel
/-- An image of one bundle for the Keeper's half B, with its CRC-32C. -/
def image : List Byte := leBytes 4 0x494B5446 ++ leBytes 2 1 ++ leBytes 2 0x40 ++ leBytes 4 3 ++ leBytes 2 1 ++ leBytes 2 1 ++ leBytes 8 0 ++
  leBytes 4 0x800 ++ leBytes 12 0 ++ leBytes 4 0x55BCBE8F ++ leBytes 4 112 ++ leBytes 16 0 ++
  leBytes 4 2 ++ leBytes 4 0x800 ++ leBytes 4 32 ++ leBytes 4 80 ++ leBytes 32 0
/-- The image as its CRC covers it, 28 bytes at a time, and the CRC's state after each part. -/
def imagePart (i : Nat) : List Byte := ((image.take 0x28 ++ [0, 0, 0, 0] ++ image.drop 0x2C).drop (28 * i)).take 28
theorem image_crc0 : (imagePart 0).foldl crcByte 0xFFFFFFFF#32 = 0x4dae079#32 := by decide +kernel
theorem image_crc1 : (imagePart 1).foldl crcByte 0x4dae079#32 = 0xc9ecc231#32 := by decide +kernel
theorem image_crc2 : (imagePart 2).foldl crcByte 0xc9ecc231#32 = 0xb1e355e6#32 := by decide +kernel
theorem image_crc3 : (imagePart 3).foldl crcByte 0xb1e355e6#32 = 0xaa434170#32 := by decide +kernel
theorem image_crc : crc32c (image.take 0x28 ++ [0, 0, 0, 0] ++ image.drop 0x2C) = BitVec.ofNat 32 (imgNat image 0x28 4) := by
  rw [show image.take 0x28 ++ [0, 0, 0, 0] ++ image.drop 0x2C = imagePart 0 ++ (imagePart 1 ++ (imagePart 2 ++ imagePart 3)) by decide +kernel]
  unfold crc32c
  rw [List.foldl_append, List.foldl_append, List.foldl_append, image_crc0, image_crc1, image_crc2, image_crc3]
  decide +kernel
theorem image_ok (s : State) : s.bootOk image = true := by
  unfold State.bootOk State.imageOk
  have h : imgSects image = [{ kind := 2, res := 0, target := 0x800, size := 32, foff := 80 }] := by decide +kernel
  simp only [image_crc, h, BEq.rfl, Bool.and_eq_true]
  and_intros <;> first | decide +kernel | rfl
theorem witness_boot_image : rdy.bootOk (flashImage image) = true ∧ rdy.bootOk (flashImage []) = false ∧
    (∀ x ∈ imgSects (flashImage image), x.kind ≠ 1) := by
  rw [show flashImage image = image by decide +kernel]
  exact ⟨image_ok rdy, by decide +kernel, by decide +kernel⟩
theorem witness_boot_mailbox : let s := { rdy.n0Put 0x7F20 0x31#32 with mem := memPut rdy.mem 0 112 (leNat image) }
    CanWrite s (.alias_ keeper) (.die newt0 0x7F24) ∧ (s.n0 0x7F20).toNat % 16 = 1 ∧ s.bootOk (leBytes 112 (memNat s.mem 0 112)) = true := by
  refine ⟨⟨_, rfl, rfl, rfl⟩, rfl, ?_⟩
  rw [show leBytes 112 _ = image by decide +kernel]
  exact image_ok _
/-- A link that trains, and a reset that holds. -/
theorem witness_package_link : let s := { rdy with pins := { rdy.pins with perst := true }, pcie := { rdy.pcie with training := true } }
    s.pcie.training = true ∧ s.pins.perst = true ∧ ({ s with supplyHold := true } : State).inReset = true ∧ rdy.inReset = false :=
  ⟨rfl, rfl, rfl, rfl⟩
theorem witness_package : State.reset.supplyHold = false ∧ (State.reset.n0 0x7E00).getLsbD 0 = false ∧ (rdy.n0 0x7E00).getLsbD 0 = true ∧
    (∀ d, smWf (fun _ => none) (rdy.die d).claims = true) ∧ CanWrite rdy (.alias_ keeper) (.die newt0 0x7F24) ∧
    CanWrite rdy (.alias_ keeper) (.die newt0 0x7F08) ∧ (179 ≤ 179 ∧ (0xB3#64).toNat / 2 ^ 0 % 2 ^ 8 = 179) ∧ (rdy.n0 0x7F20).toNat % 16 = 0 := by
  refine ⟨rfl, rfl, rfl, by decide +kernel, ⟨_, rfl, rfl, rfl⟩, ⟨_, rfl, rfl, rfl⟩, ?_, ?_⟩ <;> decide +kernel
theorem witness_keeper_boot : (rdy.n0 0x7E00).getLsbD 1 = true ∧ (rdy.n0 0x7E00).getLsbD 5 = true ∧ (rdy.n0 0x7E00).getLsbD 24 = true ∧
    rdy.n0 0x7F20 = 0 ∧ (rdy.eng keeper).mode = 1 ∧ memNat rdy.cal 0 4 % 4 ≠ 2 := by and_intros <;> decide +kernel

end Sys2Proof.Tests
end

section
/-!
The package right after reset, part by part: an engine and a die hold their defaults, so that a stored register reads as the
reset value of its table.
-/
namespace Sys2Proof.Machine

/-! ## The parts of the reset state -/

/-- Every engine holds the defaults but for the mode and the hold of engine 96, the Keeper (R415). -/
theorem State.eng_reset (e : EngineId) :
    State.reset.eng e = { mode := if e.val = 96 then 1 else 0, held := decide (e.val = 96) } := by
  unfold State.eng State.reset
  by_cases h : e.val = 96
  · simp [h]
  · simp [h, show ¬ 96 = e.val from Ne.symm h]

/-- The Keeper waits for the bring-up (R423), and MD0 is not a mode that runs. -/
theorem State.eng_reset_not_running (e : EngineId) : (State.reset.eng e).running = false := by
  rw [State.eng_reset, Engine.running]
  by_cases h : e.val = 96
  · simp [h]
  · simp [h, runningMode]

@[simp] theorem State.die_reset (d : DieId) : State.reset.die d = {} := by simp [State.die, State.reset]
theorem State.lane_reset (l : LaneId) : State.reset.lanes[l] = {} := by simp [State.reset]
theorem State.port_reset (p : PortId) : State.reset.ports[p] = {} := by simp [State.reset]
theorem State.dma_reset (c : ChanId) : State.reset.dma[c] = {} := by simp [State.reset]

/-! ## Registers and objects at reset -/

@[simp] theorem State.eng_ioGet_reset (e : EngineId) (p : Nat) : (State.reset.eng e).ioGet p = ioReset p := by
  rw [State.eng_reset, Engine.ioGet, smGet]

@[simp] theorem State.dGet_reset (d : DieId) (p : Nat) : State.reset.dGet d p = dieReset d p := by
  rw [State.dGet, State.die_reset, smGet]

@[simp] theorem State.n0_reset (p : Nat) : State.reset.n0 p = dieReset newt0 p := State.dGet_reset newt0 p

@[simp] theorem State.obj_reset (i : Nat) : State.reset.obj i = objDefault i := rfl

/-! ## Reset values that the statement names -/

theorem dieReset_eccCtl (d : DieId) : dieReset d 0x4000 = 4 := by unfold dieReset; exact if_pos rfl
theorem dieReset_helCfg : dieReset newt0 0x5000 = 0x00281E04 := by decide
theorem dieReset_tcCtl : dieReset newt0 0x5400 = 0x0F000190 := by decide

/-- Engine registers with a reset value of their own, the bank codes (R166), and others that are 0. -/
theorem ioReset_values :
    ioReset 0x800 = 3 ∧ ioReset 0x860 = 0x7E ∧ ioReset 0x8A8 = 8 ∧ ioReset 0x8C0 = 0 ∧
    ioReset 0x880 = 0 ∧ ioReset 0x884 = 0 ∧ ioReset 0x88C = 0 ∧ ioReset 0xB20 = 0x08000000 := by decide

/-! ## The statement's parts -/

/-- R41, R375, R404: the programmer-visible state of an engine at reset. -/
theorem State.eng_reset_cleared (e : EngineId) :
    (State.reset.eng e).mode = (if e.val = 96 then 1 else 0) ∧ (State.reset.eng e).running = false ∧
    State.reset.world e = .H ∧ (State.reset.eng e).pc = 0 ∧ (State.reset.eng e).sup = true ∧
    (State.reset.eng e).gr = .replicate 32 0 ∧ (State.reset.eng e).vr = .replicate 16 0 ∧
    (State.reset.eng e).pr = .replicate 8 0 ∧ (State.reset.eng e).units = .replicate 16 {} ∧
    (State.reset.eng e).lc = 0 ∧ (State.reset.eng e).ra = 0 ∧ (State.reset.eng e).astat = 0 := by
  refine ⟨?_, State.eng_reset_not_running e, ?_⟩
  · rw [State.eng_reset]
  · rw [State.world, State.eng_reset]
    exact ⟨rfl, rfl, rfl, rfl, rfl, rfl, rfl, rfl, rfl, rfl⟩

/-- Settles O37: the reset state is read part by part, and each register named as its table's reset value. -/
theorem resetState : Obligations.reset_state := by
  unfold Obligations.reset_state
  refine ⟨rfl, rfl, rfl, rfl, rfl, fun e => ?_, fun d => ?_, ?_, ?_, rfl, rfl, fun l => congrArg Lane.st (State.lane_reset l),
    fun p => congrArg ChainPort.up (State.port_reset p), fun c => congrArg Dma.st (State.dma_reset c)⟩
  · obtain ⟨mode, running, world, pc, sup, gr, vr, pr, units, lc, ra, astat⟩ := State.eng_reset_cleared e
    refine ⟨mode, running, world, pc, sup, gr, vr, pr, units, lc, ra, astat, ?_⟩
    simp only [State.eng_ioGet_reset]
    exact ioReset_values
  · rw [State.die_reset, State.dGet_reset, dieReset_eccCtl]
    exact ⟨rfl, rfl, rfl, rfl⟩
  · rw [State.n0_reset, dieReset_helCfg]
  · rw [State.n0_reset, dieReset_tcCtl]

end Sys2Proof.Machine
end

section
/-!
The hardware timers (R411): a firing sets one doorbell line of one engine and stores registers of Newt 0, and nothing else; the
stores end the timer or move its target by its period.
-/
namespace Sys2Proof.Machine

/-! ## Fields and halves of words -/

theorem fld_eq_div_mod {w : Nat} (x : BitVec w) (hi lo : Nat) : fld x hi lo = x.toNat / 2 ^ lo % 2 ^ (hi + 1 - lo) := by
  rw [fld, Nat.shiftRight_eq_div_pow]

/-- A 64-bit register kept as two words, the low one at the lower port. -/
theorem ofNat_lo_add_hi (hi lo : Word) : BitVec.ofNat 64 (lo.toNat + hi.toNat * 2 ^ 32) = (hi ++ lo : Dword) := by
  apply BitVec.eq_of_toNat_eq
  rw [BitVec.toNat_append, ← Nat.shiftLeft_add_eq_or_of_lt lo.isLt, Nat.shiftLeft_eq, BitVec.toNat_ofNat]
  omega

theorem hi_append_lo (x : Dword) : (BitVec.ofNat 32 (fld x 63 32) ++ x.setWidth 32 : Dword) = x := by
  rw [← ofNat_lo_add_hi, fld_eq_div_mod]
  apply BitVec.eq_of_toNat_eq
  simp only [BitVec.toNat_ofNat, BitVec.toNat_setWidth]
  omega

theorem setBit_31_false (x : Word) : setBit x 31 false = x &&& 0x7FFFFFFF#32 := rfl

/-! ## A rung engine and stored registers of Newt 0 -/

/-- A doorbell bit is one of lines 16 to 31, all of which INT_PEND0 holds (R371). -/
theorem Engine.setLine_doorbell (g : Engine) {b : Nat} (h : b < 16) :
    g.setLine (16 + b) = g.ioPut 0x8CC (g.ioGet 0x8CC ||| BitVec.ofNat 32 (2 ^ (16 + b))) := by
  rw [Engine.setLine, if_pos (by omega), if_neg (by omega), setBit, if_pos rfl]

@[simp] theorem State.n0_setLine (s : State) (e : EngineId) (n q : Nat) : (s.setLine e n).n0 q = s.n0 q := rfl

@[simp] theorem State.n0_n0Put (s : State) (p q : Nat) (v : Word) : (s.n0Put p v).n0 q = if q = p then v else s.n0 q := by
  simp [State.n0, State.n0Put]

/-- The state with line n of engine e set and m as the stored registers of Newt 0: the most that a timer changes. -/
def State.rungWith (s : State) (e : EngineId) (n : Nat) (m : SMap Word) : State :=
  { s with engines := s.engines.set e ((s.eng e).setLine n), dies := s.dies.set newt0 { s.die newt0 with regs := m } }

@[simp] theorem State.eng_rungWith (s : State) (e : EngineId) (n : Nat) (m : SMap Word) :
    (s.rungWith e n m).eng e = (s.eng e).setLine n := by simp [State.rungWith, State.eng]

@[simp] theorem State.die_rungWith (s : State) (e : EngineId) (n : Nat) (m : SMap Word) :
    (s.rungWith e n m).die newt0 = { s.die newt0 with regs := m } := by simp [State.rungWith, State.die]

theorem State.setLine_eq_rungWith (s : State) (e : EngineId) (n : Nat) :
    s.setLine e n = s.rungWith e n (s.die newt0).regs := by
  have hdies : s.dies.set newt0 { s.die newt0 with regs := (s.die newt0).regs } = s.dies := Vector.set_getElem_self _
  rw [State.rungWith, hdies]
  rfl

theorem State.n0Put_rungWith (s : State) (e : EngineId) (n : Nat) (m : SMap Word) (p : Nat) (v : Word) :
    (s.rungWith e n m).n0Put p v = s.rungWith e n (smPut (dieReset newt0) m p v) := by
  simp [State.n0Put, State.dPut, State.modDie, State.rungWith, Vector.set_set]

/-! ## A firing -/

/-- The target of the timer whose TMR_CTL stands at port p of Newt 0, in the format of TIM_NOW. -/
def State.timerTarget (s : State) (p : Nat) : Dword := s.n0 (p + 8) ++ s.n0 (p + 4)

/-- Its period, in reference periods. -/
def State.timerPer (s : State) (p : Nat) : Nat := (s.n0 (p + 12)).toNat % 2 ^ 16

/-- The state with the period added to the target, or with the timer disabled where it has none. -/
def State.timerNext (s : State) (p : Nat) : State :=
  let n := s.timerTarget p + BitVec.ofNat 64 (s.timerPer p * 65536)
  if s.timerPer p = 0 then s.n0Put p (s.n0 p &&& 0x7FFFFFFF#32)
  else (s.n0Put (p + 4) (n.setWidth 32)).n0Put (p + 8) (BitVec.ofNat 32 (fld n 63 32))

@[simp] theorem State.timerPer_setLine (s : State) (e : EngineId) (n p : Nat) :
    (s.setLine e n).timerPer p = s.timerPer p := rfl

@[simp] theorem State.timerTarget_setLine (s : State) (e : EngineId) (n p : Nat) :
    (s.setLine e n).timerTarget p = s.timerTarget p := rfl

/-- A timer that is enabled, due and names an engine rings its doorbell bit and then goes on or ends. -/
theorem State.timerFire_due {s : State} {t : RedId} {p : Nat} {e : EngineId} (hp : p = 0x7C00 + 16 * t.val)
    (he : s.physOf ((s.n0 p).toNat / 2 ^ 16 % 2 ^ 7) = some e) (hen : (s.n0 p).getLsbD 31 = true)
    (hr : (s.timerTarget p - s.timNow).toInt ≤ 0) :
    s.timerFire t = (s.setLine e (16 + (s.n0 p).toNat % 16)).timerNext p := by
  have hdue : (bitOf (s.n0 p) 31 && timeReached (s.n0 (p + 8) ++ s.n0 (p + 4)) s.timNow) = true := by
    rw [Bool.and_eq_true]; exact ⟨hen, decide_eq_true hr⟩
  have hengine : s.physOf (fld (s.n0 p) 22 16) = some e := by rw [fld_eq_div_mod]; exact he
  have hbit : fld (s.n0 p) 3 0 = (s.n0 p).toNat % 16 := by simp [fld_eq_div_mod]
  have hper : fld (s.n0 (p + 12)) 15 0 = s.timerPer p := by simp [fld_eq_div_mod, State.timerPer]
  unfold State.timerFire
  simp only [← hp, ofNat_lo_add_hi, hdue, if_true, hengine, hbit, hper, setBit_31_false]
  rfl

/-- Of the machine, a firing changes the rung engine and the stored registers of Newt 0 alone. -/
theorem State.timerNext_eq_rungWith (s : State) (p : Nat) (e : EngineId) (n : Nat) :
    ∃ m, (s.setLine e n).timerNext p = s.rungWith e n m := by
  unfold State.timerNext
  simp only [State.setLine_eq_rungWith, State.n0Put_rungWith]
  split
  · exact ⟨_, rfl⟩
  · exact ⟨_, rfl⟩

/-- A firing stores no register but the timer's control and target. -/
theorem State.n0_timerNext_other (s : State) {p q : Nat} (h : q ≠ p) (hlo : q ≠ p + 4) (hhi : q ≠ p + 8) :
    (s.timerNext p).n0 q = s.n0 q := by
  unfold State.timerNext
  split
  · simp [h]
  · simp [hlo, hhi]

/-- A one-shot timer is disabled, and its target stays. -/
theorem State.n0_timerNext_one_shot {s : State} {p : Nat} (h : s.timerPer p = 0) :
    (s.timerNext p).n0 p = s.n0 p &&& 0x7FFFFFFF#32 ∧ (s.timerNext p).n0 (p + 4) = s.n0 (p + 4) ∧
      (s.timerNext p).n0 (p + 8) = s.n0 (p + 8) := by
  rw [show s.timerNext p = _ from if_pos h]
  simp

/-- A periodic timer stays enabled, and its target moves by its period. -/
theorem State.n0_timerNext_periodic {s : State} {p : Nat} (h : s.timerPer p ≠ 0) :
    (s.timerNext p).n0 p = s.n0 p ∧
      (s.timerNext p).timerTarget p = s.timerTarget p + BitVec.ofNat 64 (s.timerPer p * 65536) := by
  rw [show s.timerNext p = _ from if_neg h]
  constructor
  · simp
  · rw [State.timerTarget]
    simpa using hi_append_lo _

/-- Settles O42: a due timer's firing is its doorbell and its stores, and each clause reads one of the two. -/
theorem timers : Obligations.timers := by
  unfold Obligations.timers
  rintro s t p c target per due e he ⟨hen, hr⟩ next
  let u := (s.setLine e (16 + c.toNat % 16)).timerNext p
  have hfire : s.timerFire t = u := State.timerFire_due rfl he hen hr
  have hline : c.toNat % 16 < 16 := Nat.mod_lt _ (by omega)
  obtain ⟨m, hm⟩ : ∃ m, u = s.rungWith e (16 + c.toNat % 16) m := s.timerNext_eq_rungWith p e _
  refine ⟨u, congrArg Host.Outcome.next hfire, ?_, ?_, ?_, fun q h hlo hhi => ?_, fun hper => ?_, fun hper => ?_⟩
  · rw [hm, State.eng_rungWith, State.die_rungWith, State.rungWith]
  · rw [hm, State.eng_rungWith, Engine.setLine_doorbell _ hline]
  · rw [hm, State.die_rungWith]
  · exact State.n0_timerNext_other _ h hlo hhi
  · exact State.n0_timerNext_one_shot hper
  · exact State.n0_timerNext_periodic hper

end Sys2Proof.Machine
end
